-- ==== Sys2Proof/Word.lean ====
section
/-! DEFINITION. The two word types of the block: a byte (every register and every report field is one) and the
16-bit command word. -/

namespace Sys2Proof

/-- 8 bits, unsigned (spec 00_scope.md R19). -/
abbrev Byte := BitVec 8

/-- One 16-bit command word `w`, bit 15 the most significant (30_encoding.md R90). -/
abbrev Word := BitVec 16

end Sys2Proof
end

