-- ==== Sys2Proof/Config.lean ====
section
/-! DEFINITION. The build-time parameters the spec leaves OPEN (00_scope.md R10, R12, R15): constants with no body,
so that no proof can see which value a chip has. Each type holds exactly the parameter's domain. The parameters whose
value the spec gives (MOD_NONE, MOD_SHIFT, TRIP_THRESHOLD) are in Machine/Params.lean. -/

namespace Sys2Proof

/-- The domain of `N_KEYS`, the number of keycode slots: 1 or 6 and nothing else (R10, conflict C4). -/
inductive SlotCount where
  | one
  | six
deriving DecidableEq, Repr, Inhabited

def SlotCount.toNat : SlotCount → Nat
  | .one => 1
  | .six => 6

/-- A model takes `N_KEYS` as an argument and refuses any value but 1 and 6 (R10, D19). -/
def SlotCount.ofNat? : Nat → Option SlotCount
  | 1 => some .one
  | 6 => some .six
  | _ => none

/-- The build parameters a running block carries beside its message ROM. They are fixed for the life of the block and
are not registers: no command writes them and they survive RESET (70_reset_and_hazards.md R251). -/
structure Build where
  /-- `N_KEYS` (R10). -/
  nKeys : SlotCount
  /-- `IDLE_RATE_RESET` (R15). -/
  idleRateReset : Byte
deriving DecidableEq, Repr

/-- OPEN (R10, D19): which of the two build variants the chip is. -/
opaque Config.nKeys : SlotCount

/-- OPEN (R15, D6): the idle rate after reset. -/
opaque Config.idleRateReset : Byte

/-- OPEN (R12, D20): the message, one code `c < 255` for each byte `c + 1`, so that every message of the domain
(each byte in 0x01..0xFF, any length, the empty message included) is a value and nothing else is. -/
opaque Config.messageCodes : List (Fin 255)

/-- The message byte a code stands for. -/
def messageByte (c : Fin 255) : Byte := BitVec.ofNat 8 (c.val + 1)

/-- `MESSAGE` = `m[0..L-1]` (R12). -/
def Config.message : List Byte := Config.messageCodes.map messageByte

/-- The parameters of the chip whose reset state `State.reset` is. -/
def Config.build : Build := ⟨Config.nKeys, Config.idleRateReset⟩

end Sys2Proof
end

