-- ==== Sys2Proof/Machine/Params.lean ====
section
/-! DEFINITION. The parameters whose value the spec gives (00_scope.md R11, R13, R14) and the sizes that follow from the
open ones. -/

namespace Sys2Proof

/-- The keys of the report's modifier byte (10_state.md R31). PRESUMED (log 5): the HID boot-keyboard layout. -/
inductive ModifierKey where
  | leftCtrl
  | leftShift
  | leftAlt
  | leftGui
  | rightCtrl
  | rightShift
  | rightAlt
  | rightGui
deriving DecidableEq, Repr

/-- The bit of the modifier byte a modifier key has (R31). -/
def ModifierKey.bit : ModifierKey → Nat
  | .leftCtrl => 0
  | .leftShift => 1
  | .leftAlt => 2
  | .leftGui => 3
  | .rightCtrl => 4
  | .rightShift => 5
  | .rightAlt => 6
  | .rightGui => 7

/-- `MOD_NONE` (R13). -/
def Config.modNone : Byte := 0x00#8

/-- `MOD_SHIFT` (R14): the left-shift bit. PRESUMED (log 5): the spec takes the value from general knowledge. -/
def Config.modShift : Byte := 0x02#8

/-- `TRIP_THRESHOLD` (R11). -/
def Config.tripThreshold : Byte := 5#8

/-- The sentinel of LED_STATE, "not yet received from host" (10_state.md R34). -/
def Config.ledSentinel : Byte := 0xFF#8

/-- `RLEN = 2 + N_KEYS`, the report's length in bytes (R10). -/
def Build.rlen (b : Build) : Nat := 2 + b.nKeys.toNat

/-- The width of CURSOR in bits for a message of length `len`: ceil(log2(len + 1)), at least 1 (10_state.md R30). -/
def cursorWidth (len : Nat) : Nat := max 1 (Nat.clog 2 (len + 1))

end Sys2Proof
end

