-- ==== Sys2Proof/Syntax.lean ====
section
/-! DEFINITION. The command set (30_encoding.md R91, R94): one constructor per row of the opcode table. A command has no
meaning here; Machine/ gives it one. -/

namespace Sys2Proof

/-- The seven commands. One-bit operands are `Bool` (true = 1); byte operands are taken at their own width, unsigned
(R92). -/
inductive Instr where
  /-- `TICK RDY, BTN` (R170): `rdy` is 1 when the transport can take a report; `btn` is the sampled pin level,
  0 = pressed, 1 = released (active-low). -/
  | tick (rdy btn : Bool)
  /-- `HOST_LED B` (R150): one host LED byte on the interrupt-OUT path. -/
  | hostLed (b : Byte)
  /-- `SET_REPORT LEN, B` (R201): a control-path output report of `len` bytes (15 stands for 15 or more), first byte
  `b`. -/
  | setReport (len : Nat) (b : Byte)
  /-- `GET_REPORT` (R200). -/
  | getReport
  /-- `GET_IDLE` (R202). -/
  | getIdle
  /-- `SET_IDLE B` (R203). -/
  | setIdle (b : Byte)
  /-- `CTRL_OTHER REQ` (R204): a control request the core does not support; `req` is carried and never read. -/
  | ctrlOther (req : Byte)
deriving DecidableEq, Repr

/-- Why a word names no command (R97). -/
inductive IllegalWord where
  /-- OP is 0x7..0xF (R96). -/
  | reservedOpcode
  /-- OP names a command, but a bit the format marks 0 is set (R95). -/
  | reservedBits
deriving DecidableEq, Repr

/-- The parties that act on the block (00_scope.md R17). The host acts only through the transport. -/
inductive Agent where
  /-- The mainline poll loop: one TICK per iteration. -/
  | pollLoop
  /-- The transport's interrupt context: every host-originated command. -/
  | transport
  /-- The external watchdog: the RESET input. -/
  | watchdog
deriving DecidableEq, Repr

/-- Which agent issues a command (R17). -/
def Instr.agent : Instr → Agent
  | .tick _ _ => .pollLoop
  | .hostLed _ => .transport
  | .setReport _ _ => .transport
  | .getReport => .transport
  | .getIdle => .transport
  | .setIdle _ => .transport
  | .ctrlOther _ => .transport

end Sys2Proof
end

