-- ==== Sys2Proof/WellFormed.lean ====
section
/-! DEFINITION. What makes a command and a message well-formed: the operand ranges the types do not already fix. -/

namespace Sys2Proof

/-- `LEN` is a 4-bit field, 0 to 15 (30_encoding.md R92); every other operand's type is exactly its field. -/
def Instr.wf : Instr → Bool
  | .tick _ _ => true
  | .hostLed _ => true
  | .setReport len _ => decide (len ≤ 15)
  | .getReport => true
  | .getIdle => true
  | .setIdle _ => true
  | .ctrlOther _ => true

/-- A message holds no 0x00 byte; its length is free, 0 included (00_scope.md R12). -/
def messageWf (m : List Byte) : Bool := m.all (fun b => b != 0x00#8)

end Sys2Proof
end

