-- ==== Sys2Proof/Machine/Memory.lean ====
section
/-! DEFINITION. MSG, the message ROM (20_memory.md R71, R72): the block's one addressed memory. The report space RPT is
backed by registers and is read in Ops.lean. -/

namespace Sys2Proof.Machine

/-- The ROM as (index, byte) pairs, indices rising from 0. An unlisted index lies beyond the terminator: it does not
exist, and reading it answers nothing. -/
abbrev Memory := List Host.Cell

/-- What an unlisted index reads as: no value, so that the read faults (00_scope.md R21). -/
def Memory.unlisted : Option Byte := none

/-- `MSG[i]` for a listed index. -/
def Memory.read : Memory → Nat → Option Byte
  | [], _ => Memory.unlisted
  | (a, b) :: rest, i => if a = i then some b else Memory.read rest i

/-- The bytes of a message from index `k` on, then the terminator 0x00. -/
def Memory.romFrom : Nat → List Byte → Memory
  | k, [] => [(k, 0x00#8)]
  | k, b :: m => (k, b) :: Memory.romFrom (k + 1) m

/-- `MSG[i] = m[i]` for `i < L`, and `MSG[L] = 0x00` (R12, R71). -/
def Memory.rom (m : List Byte) : Memory := Memory.romFrom 0 m

/-- Programming MSG (70_reset_and_hazards.md R252 item 1): a message with a 0x00 inside it is refused as a build
parameter outside its domain (93_implementation_defined.md item 15). -/
def Memory.program? (m : List Byte) : Option Memory :=
  if messageWf m then some (Memory.rom m) else none

/-- The canonical form from index `k` on: every index once, rising by one; the last byte is the terminator and no
other byte is 0x00. -/
def Memory.wfFrom : Nat → Memory → Bool
  | _, [] => false
  | k, [(a, b)] => a == k && b == 0x00#8
  | k, (a, b) :: c :: rest => a == k && b != 0x00#8 && Memory.wfFrom (k + 1) (c :: rest)

/-- A programmed ROM: the indices are exactly 0..L, and 0x00 stands at L only (R12). -/
def Memory.wf (m : Memory) : Bool := Memory.wfFrom 0 m

/-- `L`, the length of the message in the ROM. -/
def Memory.len (m : Memory) : Nat := m.length - 1

/-- The message a ROM holds, without its terminator. -/
def Memory.message (m : Memory) : List Byte := m.dropLast.map Prod.snd

end Sys2Proof.Machine
end

