-- ==== Sys2Proof/Machine/State.lean ====
section
/-! DEFINITION. The state of the block as plain data, the reasons a step can stop, and the state after RESET. -/

namespace Sys2Proof.Machine

/-- SEQ, the sequencer state (10_state.md R40). -/
inductive Seq where
  | idle
  | characterPending
  | releasePending
  | awaitButtonRelease
deriving DecidableEq, Repr

/-- What one step samples at the block's inputs (10_state.md R50): the level of RESET and the word on CMD. DEDUCED
(log 3): while RESET is asserted the word is not executed, since RESET takes precedence over every command (R229). -/
structure Input where
  reset : Bool
  cmd : Word
deriving DecidableEq, Repr

/-- What one input made the block put out (00_scope.md R18): the IN report if one was emitted, the WDT_SERVICE strobe,
the control response if there was one (`some []` is a zero-length response), and the INDICATOR level after the step. -/
structure OutputRecord where
  inEmit : Option (List Byte)
  wdtService : Bool
  ctrlResp : Option (List Byte)
  indicator : Bool
deriving DecidableEq, Repr

/-- Everything the spec gives the block (10_state.md R30), its storage, its ports, and the environment's schedule.
RPT_RSV has no field: it is hardwired to 0x00 (R32), and `State.rptRsv` in Ops.lean reads it. -/
structure State where
  /-- RPT_MOD, the report's modifier byte (R31). -/
  rptMod : Byte
  /-- RPT_KEY[0..N_KEYS-1], the keycode slots, slot 0 first (R33). -/
  rptKey : List Byte
  /-- LED_STATE, the last-seen LED byte; 0xFF is the sentinel (R34). -/
  ledState : Byte
  /-- CAPS_ON, the decoded caps-lock state (R37). -/
  capsOn : Bool
  /-- TOGGLE_CNT, the safety-lockout counter (R39). -/
  toggleCnt : Byte
  /-- SEQ (R40). -/
  seq : Seq
  /-- CURSOR, an index into MSG, 0..L (R41). -/
  cursor : Nat
  /-- CUR_CHAR, the snapshot of the character being typed (R42). -/
  curChar : Byte
  /-- IDLE_RATE (R43). -/
  idleRate : Byte
  /-- HALTED (R44). -/
  halted : Bool
  /-- MSG, the message ROM (20_memory.md R71). -/
  msg : Memory
  /-- N_KEYS and IDLE_RATE_RESET of this chip (R10, R15); no step changes them. -/
  build : Build
  /-- IN_EMIT with IN_DATA in the latest step: `some` exactly when IN_EMIT is 1 (R51). -/
  inEmit : Option (List Byte)
  /-- WDT_SERVICE in the latest step (R52). -/
  wdtService : Bool
  /-- CTRL_RESP in the latest step (R53). -/
  ctrlResp : Option (List Byte)
  /-- THE MODEL'S OWN (log 1): the inputs the environment will present, next first. -/
  inputs : List Input
  /-- THE MODEL'S OWN (log 2): the output trace so far, one record per input, oldest first (R18). -/
  trace : List OutputRecord
deriving DecidableEq, Repr

/-- The one fault. -/
inductive Fault where
  /-- Raised by StepChar and StepRelease on a read of MSG beyond the terminator (00_scope.md R21,
  93_implementation_defined.md item 14). Safe: the model stops where no rule of the spec leads. -/
  | msgOutOfRange (index : Nat)
deriving DecidableEq, Repr

/-- What the model gives no meaning. -/
inductive Refusal where
  /-- Raised by `exec` for a command with no meaning yet. Safe: the run stops. No arm raises it. -/
  | notModelled (mnemonic : String)
  /-- Raised by `step` on a word that names no command (30_encoding.md R97: a model must refuse it). Safe: the
  hardware ignores the word, and the run stops. -/
  | illegalWord (why : IllegalWord)
deriving DecidableEq, Repr

/-- The outcome of a command on this block. -/
abbrev Result := Host.Outcome State Fault Refusal

/-- The state right after RESET (70_reset_and_hazards.md R250) of the chip whose open parameters Config names: no
input presented yet and nothing put out. -/
def State.reset : State where
  rptMod := 0x00#8
  rptKey := List.replicate Config.build.nKeys.toNat 0x00#8
  ledState := 0xFF#8
  capsOn := false
  toggleCnt := 0x00#8
  seq := .idle
  cursor := 0
  curChar := 0x00#8
  idleRate := Config.build.idleRateReset
  halted := false
  msg := Memory.rom Config.message
  build := Config.build
  inEmit := none
  wdtService := false
  ctrlResp := none
  inputs := []
  trace := []

end Sys2Proof.Machine
end

