-- ==== Sys2Proof/Machine/Flags.lean ====
section
/-! DEFINITION. The status flags: combinational functions of the registers (10_state.md R35 to R39, R54), the counter's
saturating increment, and the codes of SEQ. The block has no arithmetic condition codes (R47). -/

namespace Sys2Proof.Machine

/-- `sat_inc8(v)` (00_scope.md R24). -/
def satInc8 (v : Byte) : Byte := if v < 0xFF#8 then v + 1#8 else 0xFF#8

/-- Caps Lock, bit 1 of a host LED byte (R35). -/
def capsBit (b : Byte) : Bool := b.getLsbD 1

/-- INDICATOR = CAPS_ON (R38). -/
def State.indicator (s : State) : Bool := s.capsOn

/-- LED_VALID: a byte other than the sentinel is stored (R36). -/
def State.ledValid (s : State) : Bool := s.ledState != Config.ledSentinel

/-- LED_NUM, bit 0 of LED_STATE (R35); reads 1 and means nothing while LED_VALID is 0. -/
def State.ledNum (s : State) : Bool := s.ledState.getLsbD 0

/-- LED_CAPS, bit 1 of LED_STATE (R35). -/
def State.ledCaps (s : State) : Bool := capsBit s.ledState

/-- LED_SCROLL, bit 2 of LED_STATE (R35). -/
def State.ledScroll (s : State) : Bool := s.ledState.getLsbD 2

/-- TRIP = (TOGGLE_CNT >= TRIP_THRESHOLD), unsigned (R39, 60_exceptions.md R223). -/
def State.trip (s : State) : Bool := decide (Config.tripThreshold ≤ s.toggleCnt)

/-- HALTED as a status output (R44, R54). -/
def State.haltedOut (s : State) : Bool := s.halted

/-- The two-bit code of a sequencer state (R40). -/
def Seq.code : Seq → BitVec 2
  | .idle => 0b00#2
  | .characterPending => 0b01#2
  | .releasePending => 0b10#2
  | .awaitButtonRelease => 0b11#2

/-- The sequencer state of a code; all four codes are legal (R40). -/
def Seq.ofCode (c : BitVec 2) : Seq :=
  if c = 0b00#2 then .idle
  else if c = 0b01#2 then .characterPending
  else if c = 0b10#2 then .releasePending
  else .awaitButtonRelease

end Sys2Proof.Machine
end

