-- ==== Sys2Proof/Machine/Mapper.lean ====
section
/-! DEFINITION. The Keycode Mapper (41_mapper.md R110 to R122): a total function of a character and the caps state. -/

namespace Sys2Proof.Machine

/-- The pair `map` answers. Named fields, since `setKey` takes its arguments in the other order (R145). -/
structure KeyPair where
  mod : Byte
  key : Byte
deriving DecidableEq, Repr

/-- The neutral pair, "no key" (00_scope.md R26). -/
def KeyPair.neutral : KeyPair := ⟨Config.modNone, 0x00#8⟩

/-- A letter's modifier: shift when case XOR caps (R114). -/
def letterMod (upper caps : Bool) : Byte := if Bool.xor upper caps then Config.modShift else Config.modNone

/-- SYM: the shifted symbols `!@#$%^&*()` and the keycodes of the digits 1..9, 0 they are paired with (R117). -/
def symTable : List (Byte × Byte) :=
  [(0x21#8, 0x1E#8), (0x40#8, 0x1F#8), (0x23#8, 0x20#8), (0x24#8, 0x21#8), (0x25#8, 0x22#8)] ++
  [(0x5E#8, 0x23#8), (0x26#8, 0x24#8), (0x2A#8, 0x25#8), (0x28#8, 0x26#8), (0x29#8, 0x27#8)]

/-- `map(c, caps)`, its cases in the order of R120. -/
def mapKey (c : Byte) (caps : Bool) : KeyPair :=
  if 0x61#8 ≤ c ∧ c ≤ 0x7A#8 then ⟨letterMod false caps, c - 0x61#8 + 0x04#8⟩
  else if 0x41#8 ≤ c ∧ c ≤ 0x5A#8 then ⟨letterMod true caps, c - 0x41#8 + 0x04#8⟩
  else if 0x31#8 ≤ c ∧ c ≤ 0x39#8 then ⟨Config.modNone, c - 0x31#8 + 0x1E#8⟩
  else if c = 0x30#8 then ⟨Config.modNone, 0x27#8⟩
  else
    match symTable.lookup c with
    | some k => ⟨Config.modShift, k⟩
    | none =>
      if c = 0x3A#8 then ⟨Config.modShift, 0x33#8⟩
      else if c = 0x3B#8 then ⟨Config.modNone, 0x33#8⟩
      else KeyPair.neutral

end Sys2Proof.Machine
end

