-- ==== Sys2Proof/Machine/Ops.lean ====
section
/-! DEFINITION. The named operations the commands are built from: the output ports, the report registers, the MSG read,
the halted gate, the safety trip (the block's one exception) and RESET (its only return). -/

namespace Sys2Proof.Machine

/-! ## Output ports (00_scope.md R22) -/

/-- Every output deasserted: what a command's pseudocode does not assert stays so. -/
def State.quiet (s : State) : State := { s with inEmit := none, wdtService := false, ctrlResp := none }

/-- `service()`: assert WDT_SERVICE. -/
def State.service (s : State) : State := { s with wdtService := true }

/-- `respond(bytes)`: answer on CTRL_RESP; `respond []` is a zero-length response. -/
def State.respond (bytes : List Byte) (s : State) : State := { s with ctrlResp := some bytes }

/-! ## The report space RPT (20_memory.md R73, R74; 42_report_buffer.md) -/

/-- RPT_RSV: hardwired, every read returns 0x00 (10_state.md R32). -/
def State.rptRsv (_ : State) : Byte := 0x00#8

/-- `MemRead(RPT, 0, RLEN)`: the whole report in offset order (R74). -/
def State.readRpt (s : State) : List Byte := s.rptMod :: s.rptRsv :: s.rptKey

/-- `MemRead(RPT, off, n)`: n bytes from an offset (00_scope.md R21). -/
def State.readRptAt (s : State) (off n : Nat) : List Byte := (s.readRpt.drop off).take n

/-- `setKey(k, m)`: the keycode first, then the modifier. Slot 0 is overwritten and every other slot is cleared;
RPT_RSV is not written (R140). -/
def State.setKey (k m : Byte) (s : State) : State :=
  { s with rptMod := m, rptKey := k :: List.replicate (s.build.nKeys.toNat - 1) 0x00#8 }

/-- `release()` is `setKey(0, NONE)` (R141). -/
def State.release (s : State) : State := s.setKey 0x00#8 Config.modNone

/-- `emit(RPT)`: assert IN_EMIT, with a snapshot of the report on IN_DATA (10_state.md R51). -/
def State.emit (s : State) : State := { s with inEmit := some s.readRpt }

/-! ## The message ROM MSG -/

/-- `MemRead(MSG, i, 1)`, the byte handed to the rest of the command; an index beyond L faults (00_scope.md R21). -/
def withMsg (s : State) (i : Nat) (rest : Byte → Result) : Result :=
  match s.msg.read i with
  | some c => rest c
  | none => .fault (.msgOutOfRange i)

/-! ## The halt (60_exceptions.md) -/

/-- `raise SafetyTrip()`: HALTED is set; nothing else is written, nothing is saved and control goes to no handler
(R224). -/
def State.raiseSafetyTrip (s : State) : State := { s with halted := true }

/-- The gate every command starts with: while HALTED = 1 it writes nothing and asserts nothing (R225); otherwise it
runs from deasserted outputs. -/
def unlessHalted (s : State) (body : State → Result) : Result :=
  if s.halted then .next s.quiet else body s.quiet

/-- RESET, the only exit from the halt (R226): every register takes its reset value in one step and no output is
asserted (70_reset_and_hazards.md R250). The ROM and the build parameters are not state and survive (R251); the
environment's schedule and the observed trace are not the block's. -/
def State.applyReset (s : State) : State :=
  { s with
    rptMod := 0x00#8
    rptKey := List.replicate s.build.nKeys.toNat 0x00#8
    ledState := Config.ledSentinel
    capsOn := false
    toggleCnt := 0x00#8
    seq := .idle
    cursor := 0
    curChar := 0x00#8
    idleRate := s.build.idleRateReset
    halted := false
    inEmit := none
    wdtService := false
    ctrlResp := none }

/-! ## The observation (00_scope.md R18) -/

/-- The record of the step just made. -/
def State.outputs (s : State) : OutputRecord := ⟨s.inEmit, s.wdtService, s.ctrlResp, s.indicator⟩

/-- Append it to the output trace. -/
def State.record (s : State) : State := { s with trace := s.trace ++ [s.outputs] }

end Sys2Proof.Machine
end

