-- ==== Sys2Proof/Machine/Led.lean ====
section
/-! DEFINITION. The LED-state decoder and safety-lockout counter (43_led_controller.md): `onHostReport` and HOST_LED. -/

namespace Sys2Proof.Machine

/-- `onHostReport(b)` (R150): a repeat of the stored byte writes nothing (R151); any other byte is stored, an OFF→ON
edge of Caps Lock against CAPS_ON counts (R152), and CAPS_ON follows the byte. It never halts the block itself. -/
def State.onHostReport (b : Byte) (s : State) : State :=
  if b = s.ledState then s
  else
    { s with
      ledState := b
      toggleCnt := if capsBit b && !s.capsOn then satInc8 s.toggleCnt else s.toggleCnt
      capsOn := capsBit b }

/-- `HOST_LED B` (R150). -/
def execHostLed (b : Byte) (s : State) : Result :=
  unlessHalted s fun q => .next (q.onHostReport b)

end Sys2Proof.Machine
end

