-- ==== Sys2Proof/Machine/Operands.lean ====
section
/-! DEFINITION. What the operands of a command mean. The fields themselves are taken from the word in Decode.lean. -/

namespace Sys2Proof.Machine

/-- The button is active-low: pressed = (BTN = 0) (44_sequencer.md R171). -/
def pressed (btn : Bool) : Bool := !btn

/-- A SET_REPORT payload goes to the LED controller when its length is 1, and only then (45_control_requests.md
R201). -/
def isLedPayload (len : Nat) : Bool := len == 1

end Sys2Proof.Machine
end

