-- ==== Sys2Proof/Machine/Control.lean ====
section
/-! DEFINITION. The control requests (45_control_requests.md R200 to R204). -/

namespace Sys2Proof.Machine

/-- A copy of the report with the modifier (offset 0) and the first keycode (offset 2) forced neutral (R200). -/
def State.maskedReport (s : State) : List Byte := (s.readRpt.set 0 0x00#8).set 2 0x00#8

/-- `GET_REPORT` (R200): answers the masked copy; the report itself is not written. -/
def execGetReport (s : State) : Result :=
  unlessHalted s fun q => .next (q.respond q.maskedReport)

/-- `SET_REPORT LEN, B` (R201): a payload of length 1 is a host LED byte; any other length changes nothing. Either way
the request completes with no data. -/
def execSetReport (len : Nat) (b : Byte) (s : State) : Result :=
  unlessHalted s fun q => .next ((if isLedPayload len then q.onHostReport b else q).respond [])

/-- `GET_IDLE` (R202). -/
def execGetIdle (s : State) : Result :=
  unlessHalted s fun q => .next (q.respond [q.idleRate])

/-- `SET_IDLE B` (R203): the byte is stored as given, with no policy. -/
def execSetIdle (b : Byte) (s : State) : Result :=
  unlessHalted s fun q => .next ({ q with idleRate := b }.respond [])

/-- `CTRL_OTHER REQ` (R204): completes with no data; the request code is not read. -/
def execCtrlOther (_req : Byte) (s : State) : Result :=
  unlessHalted s fun q => .next (q.respond [])

end Sys2Proof.Machine
end

