-- ==== Sys2Proof/Machine/Sequencer.lean ====
section
/-! DEFINITION. The key sequencer's four steps (44_sequencer.md R172 to R175) and TICK (R170). -/

namespace Sys2Proof.Machine

/-- StepIdle (R172): a pressed level clears the counter and starts the message; a released one writes nothing. -/
def State.stepIdle (isPressed : Bool) (s : State) : State :=
  if isPressed then { s with toggleCnt := 0x00#8, seq := .characterPending } else s

/-- StepChar (R173): snapshot the character at CURSOR, map it under CAPS_ON, stage it and emit the report. -/
def State.stepChar (s : State) : Result :=
  withMsg s s.cursor fun c =>
    let pair := mapKey c s.capsOn
    .next { ({ s with curChar := c }.setKey pair.key pair.mod).emit with seq := .releasePending }

/-- The end of a press cycle: CURSOR wraps to the start and the button must be released (R174). -/
def State.endOfMessage (s : State) : State := { s with cursor := 0, seq := .awaitButtonRelease }

/-- The next character of the same press (R174). -/
def State.advance (s : State) : State := { s with cursor := s.cursor + 1, seq := .characterPending }

/-- StepRelease (R174): stage and emit the release frame, then wrap when CURSOR is at the terminator (the empty
message) or, read only if it is not, when the next position is. -/
def State.stepRelease (s : State) : Result :=
  let r := s.release.emit
  withMsg s s.cursor fun c =>
    if c = 0x00#8 then .next r.endOfMessage
    else withMsg s (s.cursor + 1) fun d =>
      if d = 0x00#8 then .next r.endOfMessage else .next r.advance

/-- StepAwait (R175): only a released level re-arms the block. -/
def State.stepAwait (isPressed : Bool) (s : State) : State :=
  if isPressed then s else { s with seq := .idle }

/-- One step of the sequencer, chosen by SEQ at the start of the tick (R178). -/
def State.stepSequencer (btn : Bool) (s : State) : Result :=
  match s.seq with
  | .idle => .next (s.stepIdle (pressed btn))
  | .characterPending => s.stepChar
  | .releasePending => s.stepRelease
  | .awaitButtonRelease => .next (s.stepAwait (pressed btn))

/-- `TICK RDY, BTN` (R170). The order within a tick: the halted gate, the trip check, the watchdog service, and, on a
ready tick only, one sequencer step (60_exceptions.md R229). -/
def execTick (rdy btn : Bool) (s : State) : Result :=
  unlessHalted s fun q =>
    if q.trip then .next q.raiseSafetyTrip
    else if rdy then q.service.stepSequencer btn
    else .next q.service

end Sys2Proof.Machine
end

