-- ==== Sys2Proof/Machine/Dispatch.lean ====
section
/-! DEFINITION. One arm per command: its meaning. -/

namespace Sys2Proof.Machine

def exec (i : Instr) (s : State) : Host.Outcome State Fault Refusal :=
  match i with
  | .tick rdy btn => Sys2Proof.Machine.execTick rdy btn s
  | .hostLed b => Sys2Proof.Machine.execHostLed b s
  | .setReport len b => Sys2Proof.Machine.execSetReport len b s
  | .getReport => Sys2Proof.Machine.execGetReport s
  | .getIdle => Sys2Proof.Machine.execGetIdle s
  | .setIdle b => Sys2Proof.Machine.execSetIdle b s
  | .ctrlOther req => Sys2Proof.Machine.execCtrlOther req s

end Sys2Proof.Machine
end

