-- ==== Sys2Proof/Decode.lean ====
section
/-! DEFINITION. The command encoding (30_encoding.md R90 to R99): the opcode table's rows, the operand fields, the decoder
(total on any word, rejecting by name) and the encoder. -/

namespace Sys2Proof

/-! ## Operand fields (R92) -/

/-- `RDY = w[1]`. -/
def rdyOf (w : Word) : Bool := w.getLsbD 1

/-- `BTN = w[0]`. -/
def btnOf (w : Word) : Bool := w.getLsbD 0

/-- `B = w[7:0]`, and `REQ = w[7:0]`. -/
def byteOf (w : Word) : Byte := w.extractLsb' 0 8

/-- `LEN = w[11:8]`. -/
def lenOf (w : Word) : Nat := (w.extractLsb' 8 4).toNat

/-- `OP = w[15:12]` (R90). -/
def opOf (w : Word) : BitVec 4 := w.extractLsb' 12 4

/-! ## The opcode table (R91) -/

structure OpcodeRow where
  mnemonic : String
  mask : Word
  value : Word
deriving DecidableEq, Repr

/-- `(w & mask) == match` (R93). -/
def OpcodeRow.hits (r : OpcodeRow) (w : Word) : Bool := w &&& r.mask == r.value

def rowTick : OpcodeRow := ⟨"TICK", 0xFFFC#16, 0x0000#16⟩
def rowHostLed : OpcodeRow := ⟨"HOST_LED", 0xFF00#16, 0x1000#16⟩
def rowSetReport : OpcodeRow := ⟨"SET_REPORT", 0xF000#16, 0x2000#16⟩
def rowGetReport : OpcodeRow := ⟨"GET_REPORT", 0xFFFF#16, 0x3000#16⟩
def rowGetIdle : OpcodeRow := ⟨"GET_IDLE", 0xFFFF#16, 0x4000#16⟩
def rowSetIdle : OpcodeRow := ⟨"SET_IDLE", 0xFF00#16, 0x5000#16⟩
def rowCtrlOther : OpcodeRow := ⟨"CTRL_OTHER", 0xFF00#16, 0x6000#16⟩

def opcodeRows : List OpcodeRow :=
  [rowTick, rowHostLed, rowSetReport, rowGetReport, rowGetIdle, rowSetIdle, rowCtrlOther]

/-- The row a command is encoded by. -/
def rowOf : Instr → OpcodeRow
  | .tick _ _ => rowTick
  | .hostLed _ => rowHostLed
  | .setReport _ _ => rowSetReport
  | .getReport => rowGetReport
  | .getIdle => rowGetIdle
  | .setIdle _ => rowSetIdle
  | .ctrlOther _ => rowCtrlOther

/-! ## Decoding -/

/-- Why a word that matches no row is illegal: its OP is reserved (R96), or a reserved bit is set (R95). -/
def illegalReason (w : Word) : IllegalWord :=
  if 0x7#4 ≤ opOf w then .reservedOpcode else .reservedBits

/-- The command a word names, or why it names none (R93, R97). The block has no prefixes, lengths or modes that
change decoding (R90). -/
def decode (w : Word) : Except IllegalWord Instr :=
  if rowTick.hits w then .ok (.tick (rdyOf w) (btnOf w))
  else if rowHostLed.hits w then .ok (.hostLed (byteOf w))
  else if rowSetReport.hits w then .ok (.setReport (lenOf w) (byteOf w))
  else if rowGetReport.hits w then .ok .getReport
  else if rowGetIdle.hits w then .ok .getIdle
  else if rowSetIdle.hits w then .ok (.setIdle (byteOf w))
  else if rowCtrlOther.hits w then .ok (.ctrlOther (byteOf w))
  else .error (illegalReason w)

/-! ## Encoding -/

/-- The word of a well-formed command: OP, the reserved zeros and the operand fields, high field first (R91). -/
def encode : Instr → Word
  | .tick rdy btn => 0x0#4 ++ 0#10 ++ BitVec.ofBool rdy ++ BitVec.ofBool btn
  | .hostLed b => 0x1#4 ++ 0#4 ++ b
  | .setReport len b => 0x2#4 ++ BitVec.ofNat 4 len ++ b
  | .getReport => 0x3#4 ++ 0#12
  | .getIdle => 0x4#4 ++ 0#12
  | .setIdle b => 0x5#4 ++ 0#4 ++ b
  | .ctrlOther req => 0x6#4 ++ 0#4 ++ req

/-! ## The host's reading of the table -/

/-- The word whose low `nbits` bits are `w`, every higher bit 0. Every row of the table has 16 bits, and the block has
one word per command, so no byte order enters (20_memory.md R75). -/
def tableWord (nbits w : Nat) : Word := BitVec.ofNat 16 (w % 2 ^ nbits)

/-- The command the decoder reads from a table word. -/
def decodeTableWord (nbits w : Nat) : Option Instr :=
  match decode (tableWord nbits w) with
  | .ok i => some i
  | .error _ => none

end Sys2Proof
end

