-- ==== Sys2Proof/Machine/Fetch.lean ====
section
/-! DEFINITION. How the next input reaches the block. The block fetches nothing (10_state.md R46): the environment
presents one input per step (R50). -/

namespace Sys2Proof.Machine

/-- An input that carries a command word, RESET not asserted. -/
def Input.command (w : Word) : Input := ⟨false, w⟩

/-- The input RESET, with the word on CMD immaterial. -/
def Input.assertReset : Input := ⟨true, 0x0000#16⟩

/-- Which agent an input comes from: the watchdog asserts RESET, and the poll loop or the transport issues the command
(00_scope.md R17); an illegal word comes from none. -/
def Input.agent (inp : Input) : Option Agent :=
  if inp.reset then some .watchdog
  else
    match decode inp.cmd with
    | .ok i => some i.agent
    | .error _ => none

/-- The schedule with one input taken off. -/
def State.take (s : State) (rest : List Input) : State := { s with inputs := rest }

/-- The schedule with one input put before it. -/
def State.present (inp : Input) (s : State) : State := { s with inputs := inp :: s.inputs }

end Sys2Proof.Machine
end

