-- ==== Sys2Proof/Machine/Step.lean ====
section
/-! DEFINITION. One step: the block takes the next input and performs it, atomically (20_memory.md R78, R80). -/

namespace Sys2Proof.Machine

/-- A finished command is recorded in the trace; a stop is a stop. -/
def finish : Result → Result
  | .next t => .next t.record
  | .fault f => .fault f
  | .refused r => .refused r

/-- One input. RESET comes before any command (60_exceptions.md R229); an illegal word is refused (30_encoding.md R97).
With no input presented nothing happens: no register changes, no output is asserted, nothing is recorded (log 2). -/
def step (s : State) : Host.Outcome State Fault Refusal :=
  match s.inputs with
  | [] => .next s.quiet
  | inp :: rest =>
    if inp.reset then .next (s.take rest).applyReset.record
    else
      match decode inp.cmd with
      | .ok i => finish (exec i (s.take rest))
      | .error why => .refused (.illegalWord why)

/-- `s` with a command word presented first, so that the very next step runs it (log 1). -/
def State.withFetchWord (s : State) (nbits w : Nat) : State := s.present (Input.command (tableWord nbits w))

end Sys2Proof.Machine
end

