-- ==== Sys2Proof/Machine/Assembler.lean ====
section
/-! DEFINITION. Command scripts (30_encoding.md R100, R101): a spelling for the inputs of a run. No command of the block
depends on it. -/

namespace Sys2Proof.Machine

/-- One line of a command script: the commands and RESET (R100), then the pseudo-commands (R101). Operands are numbers
as written. -/
inductive AsmLine where
  | tick (rdy btn : Nat)
  | led (b : Nat)
  | setRpt (len b : Nat)
  | getRpt
  | getIdle
  | setIdle (b : Nat)
  | ctrl (req : Nat)
  | reset
  | press
  | released
  | busy (btn : Nat)
  | ledOut (b : Nat)
deriving DecidableEq, Repr

/-- Each pseudo-command is an alias of exactly one command (R101). -/
def AsmLine.expand : AsmLine → AsmLine
  | .press => .tick 1 0
  | .released => .tick 1 1
  | .busy btn => .tick 0 btn
  | .ledOut b => .setRpt 1 b
  | .tick rdy btn => .tick rdy btn
  | .led b => .led b
  | .setRpt len b => .setRpt len b
  | .getRpt => .getRpt
  | .getIdle => .getIdle
  | .setIdle b => .setIdle b
  | .ctrl req => .ctrl req
  | .reset => .reset

/-- An operand that does not fit its field makes the line no command. DESIGN CHOICE (log 14): the spec states no range
check. -/
def inField (v bound : Nat) (w : Nat) : Option Input :=
  if v < bound then some (Input.command (BitVec.ofNat 16 w)) else none

/-- The input a line stands for (R100's column "word"). A SET_REPORT length of 15 or more is written as 15. -/
def AsmLine.input (line : AsmLine) : Option Input :=
  match line.expand with
  | .tick rdy btn => if rdy < 2 then inField btn 2 (rdy <<< 1 ||| btn) else none
  | .led b => inField b 256 (0x1000 ||| b)
  | .setRpt len b => inField b 256 (0x2000 ||| min len 15 <<< 8 ||| b)
  | .getRpt => some (Input.command 0x3000#16)
  | .getIdle => some (Input.command 0x4000#16)
  | .setIdle b => inField b 256 (0x5000 ||| b)
  | .ctrl req => inField req 256 (0x6000 ||| req)
  | .reset => some Input.assertReset
  | .press => none
  | .released => none
  | .busy _ => none
  | .ledOut _ => none

/-! ## The text of a line -/

def isBlank (c : Char) : Bool := c == ' ' || c == '\t'

/-- The characters without blanks at either end. -/
def trimBlanks (cs : List Char) : List Char := ((cs.dropWhile isBlank).reverse.dropWhile isBlank).reverse

/-- The pieces between commas. -/
def splitCommas : List Char → List (List Char)
  | [] => [[]]
  | c :: cs =>
    match splitCommas cs with
    | [] => [[c]]
    | piece :: pieces => if c == ',' then [] :: piece :: pieces else (c :: piece) :: pieces

/-- The value of a decimal or hexadecimal digit. -/
def digitValue (c : Char) : Option Nat :=
  if '0'.toNat ≤ c.toNat ∧ c.toNat ≤ '9'.toNat then some (c.toNat - '0'.toNat)
  else if 'a'.toNat ≤ c.toNat ∧ c.toNat ≤ 'f'.toNat then some (c.toNat - 'a'.toNat + 10)
  else if 'A'.toNat ≤ c.toNat ∧ c.toNat ≤ 'F'.toNat then some (c.toNat - 'A'.toNat + 10)
  else none

/-- Digits in a base, after the value `acc` of the digits before them. -/
def digitsFrom (base acc : Nat) : List Char → Option Nat
  | [] => some acc
  | c :: cs =>
    match digitValue c with
    | some d => if d < base then digitsFrom base (acc * base + d) cs else none
    | none => none

/-- A number is decimal, or hex with `0x` (R100). -/
def parseNumber : List Char → Option Nat
  | [] => none
  | ['0', 'x'] => none
  | '0' :: 'x' :: ds => digitsFrom 16 0 ds
  | ds => digitsFrom 10 0 ds

def parseOperands : List (List Char) → Option (List Nat)
  | [] => some []
  | piece :: pieces =>
    match parseNumber (trimBlanks piece), parseOperands pieces with
    | some v, some vs => some (v :: vs)
    | _, _ => none

/-- A line's name and operands, as R100 and R101 spell them. -/
def lineOf (name : List Char) (operands : List Nat) : Option AsmLine :=
  match operands with
  | [] =>
    if name = "GETRPT".toList then some .getRpt
    else if name = "GETIDLE".toList then some .getIdle
    else if name = "RESET".toList then some .reset
    else if name = "PRESS".toList then some .press
    else if name = "RELEASED".toList then some .released
    else none
  | [b] =>
    if name = "LED".toList then some (.led b)
    else if name = "SETIDLE".toList then some (.setIdle b)
    else if name = "CTRL".toList then some (.ctrl b)
    else if name = "BUSY".toList then some (.busy b)
    else if name = "LEDOUT".toList then some (.ledOut b)
    else none
  | [a, b] =>
    if name = "TICK".toList then some (.tick a b)
    else if name = "SETRPT".toList then some (.setRpt a b)
    else none
  | _ => none

/-- One line: `;` starts a comment; a blank line is no command (`some none`); `none` is a line R100 does not spell. -/
def parseLine (line : List Char) : Option (Option AsmLine) :=
  let body := trimBlanks (line.takeWhile (· != ';'))
  let name := body.takeWhile fun c => !isBlank c
  let rest := trimBlanks (body.dropWhile fun c => !isBlank c)
  if body.isEmpty then some none
  else
    match (if rest.isEmpty then some [] else parseOperands (splitCommas rest)) with
    | some operands => (lineOf name operands).map some
    | none => none

/-- A script, one command per line, as the inputs it presents. -/
def assemble : List (List Char) → Option (List Input)
  | [] => some []
  | line :: lines =>
    match parseLine line, assemble lines with
    | some none, some inputs => some inputs
    | some (some l), some inputs => l.input.map (· :: inputs)
    | _, _ => none

end Sys2Proof.Machine
end

