-- ==== Sys2Proof/Machine/MapperTable.lean ====
section
/-! DEFINITION. The complete lookup table of 41_mapper.md R121, row by row as the spec prints it. The Mapper itself is
computed by rule (Mapper.lean); this is the other reading, for a statement that the two agree. -/

namespace Sys2Proof.Machine

/-- One row of R121: a character code, its keycode, and its modifier with caps lock off and on. -/
structure MapRow where
  code : Byte
  key : Byte
  modOff : Byte
  modOn : Byte
deriving DecidableEq, Repr

def mapRowsPunctuation : List MapRow :=
  [⟨0x21#8, 0x1E#8, 0x02#8, 0x02#8⟩, ⟨0x23#8, 0x20#8, 0x02#8, 0x02#8⟩, ⟨0x24#8, 0x21#8, 0x02#8, 0x02#8⟩] ++
  [⟨0x25#8, 0x22#8, 0x02#8, 0x02#8⟩, ⟨0x26#8, 0x24#8, 0x02#8, 0x02#8⟩, ⟨0x28#8, 0x26#8, 0x02#8, 0x02#8⟩] ++
  [⟨0x29#8, 0x27#8, 0x02#8, 0x02#8⟩, ⟨0x2A#8, 0x25#8, 0x02#8, 0x02#8⟩, ⟨0x30#8, 0x27#8, 0x00#8, 0x00#8⟩] ++
  [⟨0x31#8, 0x1E#8, 0x00#8, 0x00#8⟩, ⟨0x32#8, 0x1F#8, 0x00#8, 0x00#8⟩, ⟨0x33#8, 0x20#8, 0x00#8, 0x00#8⟩] ++
  [⟨0x34#8, 0x21#8, 0x00#8, 0x00#8⟩, ⟨0x35#8, 0x22#8, 0x00#8, 0x00#8⟩, ⟨0x36#8, 0x23#8, 0x00#8, 0x00#8⟩] ++
  [⟨0x37#8, 0x24#8, 0x00#8, 0x00#8⟩, ⟨0x38#8, 0x25#8, 0x00#8, 0x00#8⟩, ⟨0x39#8, 0x26#8, 0x00#8, 0x00#8⟩] ++
  [⟨0x3A#8, 0x33#8, 0x02#8, 0x02#8⟩, ⟨0x3B#8, 0x33#8, 0x00#8, 0x00#8⟩, ⟨0x40#8, 0x1F#8, 0x02#8, 0x02#8⟩] ++
  [⟨0x5E#8, 0x23#8, 0x02#8, 0x02#8⟩]

def mapRowsUpper : List MapRow :=
  [⟨0x41#8, 0x04#8, 0x02#8, 0x00#8⟩, ⟨0x42#8, 0x05#8, 0x02#8, 0x00#8⟩, ⟨0x43#8, 0x06#8, 0x02#8, 0x00#8⟩] ++
  [⟨0x44#8, 0x07#8, 0x02#8, 0x00#8⟩, ⟨0x45#8, 0x08#8, 0x02#8, 0x00#8⟩, ⟨0x46#8, 0x09#8, 0x02#8, 0x00#8⟩] ++
  [⟨0x47#8, 0x0A#8, 0x02#8, 0x00#8⟩, ⟨0x48#8, 0x0B#8, 0x02#8, 0x00#8⟩, ⟨0x49#8, 0x0C#8, 0x02#8, 0x00#8⟩] ++
  [⟨0x4A#8, 0x0D#8, 0x02#8, 0x00#8⟩, ⟨0x4B#8, 0x0E#8, 0x02#8, 0x00#8⟩, ⟨0x4C#8, 0x0F#8, 0x02#8, 0x00#8⟩] ++
  [⟨0x4D#8, 0x10#8, 0x02#8, 0x00#8⟩, ⟨0x4E#8, 0x11#8, 0x02#8, 0x00#8⟩, ⟨0x4F#8, 0x12#8, 0x02#8, 0x00#8⟩] ++
  [⟨0x50#8, 0x13#8, 0x02#8, 0x00#8⟩, ⟨0x51#8, 0x14#8, 0x02#8, 0x00#8⟩, ⟨0x52#8, 0x15#8, 0x02#8, 0x00#8⟩] ++
  [⟨0x53#8, 0x16#8, 0x02#8, 0x00#8⟩, ⟨0x54#8, 0x17#8, 0x02#8, 0x00#8⟩, ⟨0x55#8, 0x18#8, 0x02#8, 0x00#8⟩] ++
  [⟨0x56#8, 0x19#8, 0x02#8, 0x00#8⟩, ⟨0x57#8, 0x1A#8, 0x02#8, 0x00#8⟩, ⟨0x58#8, 0x1B#8, 0x02#8, 0x00#8⟩] ++
  [⟨0x59#8, 0x1C#8, 0x02#8, 0x00#8⟩, ⟨0x5A#8, 0x1D#8, 0x02#8, 0x00#8⟩]

def mapRowsLower : List MapRow :=
  [⟨0x61#8, 0x04#8, 0x00#8, 0x02#8⟩, ⟨0x62#8, 0x05#8, 0x00#8, 0x02#8⟩, ⟨0x63#8, 0x06#8, 0x00#8, 0x02#8⟩] ++
  [⟨0x64#8, 0x07#8, 0x00#8, 0x02#8⟩, ⟨0x65#8, 0x08#8, 0x00#8, 0x02#8⟩, ⟨0x66#8, 0x09#8, 0x00#8, 0x02#8⟩] ++
  [⟨0x67#8, 0x0A#8, 0x00#8, 0x02#8⟩, ⟨0x68#8, 0x0B#8, 0x00#8, 0x02#8⟩, ⟨0x69#8, 0x0C#8, 0x00#8, 0x02#8⟩] ++
  [⟨0x6A#8, 0x0D#8, 0x00#8, 0x02#8⟩, ⟨0x6B#8, 0x0E#8, 0x00#8, 0x02#8⟩, ⟨0x6C#8, 0x0F#8, 0x00#8, 0x02#8⟩] ++
  [⟨0x6D#8, 0x10#8, 0x00#8, 0x02#8⟩, ⟨0x6E#8, 0x11#8, 0x00#8, 0x02#8⟩, ⟨0x6F#8, 0x12#8, 0x00#8, 0x02#8⟩] ++
  [⟨0x70#8, 0x13#8, 0x00#8, 0x02#8⟩, ⟨0x71#8, 0x14#8, 0x00#8, 0x02#8⟩, ⟨0x72#8, 0x15#8, 0x00#8, 0x02#8⟩] ++
  [⟨0x73#8, 0x16#8, 0x00#8, 0x02#8⟩, ⟨0x74#8, 0x17#8, 0x00#8, 0x02#8⟩, ⟨0x75#8, 0x18#8, 0x00#8, 0x02#8⟩] ++
  [⟨0x76#8, 0x19#8, 0x00#8, 0x02#8⟩, ⟨0x77#8, 0x1A#8, 0x00#8, 0x02#8⟩, ⟨0x78#8, 0x1B#8, 0x00#8, 0x02#8⟩] ++
  [⟨0x79#8, 0x1C#8, 0x00#8, 0x02#8⟩, ⟨0x7A#8, 0x1D#8, 0x00#8, 0x02#8⟩]

/-- The 74 mapped codes (R121), the non-letters first. -/
def mapTable : List MapRow := mapRowsPunctuation ++ mapRowsUpper ++ mapRowsLower

/-- The pair R121 prints for a character; a code it does not list has the neutral pair (R119). -/
def tableKey (c : Byte) (caps : Bool) : KeyPair :=
  match mapTable.find? fun r => r.code == c with
  | some r => ⟨if caps then r.modOn else r.modOff, r.key⟩
  | none => ⟨0x00#8, 0x00#8⟩

end Sys2Proof.Machine
end

