-- ==== Sys2Proof/Safety.lean ====
section
/-! DEFINITION. The terms the statements use: runs, the state a chip boots in, reports, edges of caps lock, and the
invariant of the block. -/

namespace Sys2Proof.Machine

/-! ## Runs -/

/-- `k` steps, stopping at the first fault or refusal. -/
def run : Nat → State → Result
  | 0, s => .next s
  | k + 1, s =>
    match step s with
    | .next t => run k t
    | .fault f => .fault f
    | .refused r => .refused r

/-- The input that carries a command. -/
def inputOf (i : Instr) : Input := Input.command (encode i)

/-- The state after RESET of a chip with given parameters and message, and the inputs it will be given
(70_reset_and_hazards.md R250, R252). -/
def State.boot (b : Build) (m : List Byte) (inputs : List Input) : State where
  rptMod := 0x00#8
  rptKey := List.replicate b.nKeys.toNat 0x00#8
  ledState := 0xFF#8
  capsOn := false
  toggleCnt := 0x00#8
  seq := .idle
  cursor := 0
  curChar := 0x00#8
  idleRate := b.idleRateReset
  halted := false
  msg := Memory.rom m
  build := b
  inEmit := none
  wdtService := false
  ctrlResp := none
  inputs := inputs
  trace := []

/-- The states of a run from RESET, over every chip, every legal message and every order of inputs
(00_scope.md R18, 20_memory.md R80). -/
inductive Reachable : State → Prop where
  | boot (b : Build) (m : List Byte) (inputs : List Input) (legal : messageWf m = true) :
      Reachable (State.boot b m inputs)
  | step {s t : State} (before : Reachable s) (next : step s = .next t) : Reachable t

/-! ## Reports (44_sequencer.md R179) -/

/-- `report(mod, key)`: `[mod, 0x00, key, 0x00...]`, RLEN bytes. -/
def report (b : Build) (p : KeyPair) : List Byte :=
  p.mod :: 0x00#8 :: p.key :: List.replicate (b.nKeys.toNat - 1) 0x00#8

/-- The all-zero report. -/
def zeroReport (b : Build) : List Byte := List.replicate b.rlen 0x00#8

/-- The reports a whole message puts out with caps lock at `caps` throughout. -/
def messageReports (b : Build) (caps : Bool) (m : List Byte) : List (List Byte) :=
  m.flatMap fun c => [report b (mapKey c caps), zeroReport b]

/-- The report registers hold this pair and no other key. -/
def State.holds (s : State) (p : KeyPair) : Prop :=
  s.rptMod = p.mod ∧ s.rptKey = p.key :: List.replicate (s.build.nKeys.toNat - 1) 0x00#8

/-! ## Caps-lock edges (43_led_controller.md R151, R152) -/

/-- How many OFF→ON edges a sequence of host LED bytes makes, from a stored byte and a caps state: a repeat of the last
stored byte is no edge and changes neither. Counted without bound. -/
def capsEdges : Byte → Bool → List Byte → Nat
  | _, _, [] => 0
  | led, caps, b :: bs =>
    if b = led then capsEdges led caps bs
    else (if capsBit b && !caps then 1 else 0) + capsEdges b (capsBit b) bs

/-- The two paths a host LED byte comes by (43_led_controller.md R159). -/
inductive LedPath where
  | interruptOut
  | control
deriving DecidableEq, Repr

/-- The command that delivers a host LED byte by a path. -/
def ledCommand : LedPath × Byte → Instr
  | (.interruptOut, b) => .hostLed b
  | (.control, b) => .setReport 1 b

/-! ## The invariant -/

/-- MSG holds a legal message and its terminator (00_scope.md R12). -/
def RomInv (s : State) : Prop := s.msg.wf = true

/-- 42_report_buffer.md R143: only slot 0 holds a key, and no modifier is held without one. -/
def ReportInv (s : State) : Prop :=
  ∃ k, s.rptKey = k :: List.replicate (s.build.nKeys.toNat - 1) 0x00#8 ∧ (k = 0x00#8 → s.rptMod = 0x00#8)

/-- 44_sequencer.md R179 and 10_state.md R41: the cursor rests at 0, and points at a character of the message unless
the message is empty. -/
def CursorInv (s : State) : Prop :=
  (s.seq = .idle ∨ s.seq = .awaitButtonRelease → s.cursor = 0) ∧
    (s.cursor < s.msg.len ∨ s.cursor = 0 ∧ s.msg.len = 0)

/-- 41_mapper.md R111: CAPS_ON is bit 1 of LED_STATE, except that it may be 0 while the sentinel is stored. -/
def LedInv (s : State) : Prop :=
  s.capsOn = capsBit s.ledState ∨ s.ledState = Config.ledSentinel ∧ s.capsOn = false

/-- 60_exceptions.md R222, R224: a halted block shows the count that halted it. -/
def HaltInv (s : State) : Prop := s.halted = true → s.trip = true

/-- 44_sequencer.md R173, R174: a key is held exactly between a StepChar and its StepRelease, and it is the one of the
character under the cursor, mapped with some caps state. -/
def StagedInv (s : State) : Prop :=
  (s.seq = .releasePending →
      s.msg.read s.cursor = some s.curChar ∧ ∃ caps, s.holds (mapKey s.curChar caps)) ∧
    (s.seq ≠ .releasePending → s.holds KeyPair.neutral)

/-- The invariant of the block. -/
structure Inv (s : State) : Prop where
  rom : RomInv s
  report : ReportInv s
  cursor : CursorInv s
  led : LedInv s
  halt : HaltInv s
  staged : StagedInv s

/-- Every register of the block and everything it is built with: two states that differ at most in their output ports,
their schedule and their trace. -/
structure SameBlock (s t : State) : Prop where
  rptMod : t.rptMod = s.rptMod
  rptKey : t.rptKey = s.rptKey
  ledState : t.ledState = s.ledState
  capsOn : t.capsOn = s.capsOn
  toggleCnt : t.toggleCnt = s.toggleCnt
  seq : t.seq = s.seq
  cursor : t.cursor = s.cursor
  curChar : t.curChar = s.curChar
  idleRate : t.idleRate = s.idleRate
  halted : t.halted = s.halted
  msg : t.msg = s.msg
  build : t.build = s.build

end Sys2Proof.Machine
end

