-- ==== Sys2Proof/Certificates/Slice0/Obligations.lean ====
section
/-! DEFINITION. The statements for the provers, family by family. Each docstring names the rules it formalises; the
statements that say MODEL or INFERENCE rest on a choice of the model that the named log entry declares, or on an
inference the spec marks as its own. Where a statement speaks of the schedule of inputs or of the trace, these are the
model's own fields (logs 1, 2). -/

open Sys2Proof Sys2Proof.Machine

/-! ## The encoding (30_encoding.md) -/

/-- No bit of a command is lost: decoding the word of a well-formed command gives the command back, with every operand
(R91, R92). -/
def Obligations.DecodeOfEncode : Prop :=
  ∀ i : Instr, i.wf = true → decode (encode i) = .ok i

/-- The other direction: a word that decodes is the word of the command it decodes to, and that command is well-formed
(R91, R92). -/
def Obligations.EncodeOfDecode : Prop :=
  ∀ (w : Word) (i : Instr), decode w = .ok i → i.wf = true ∧ encode i = w

/-- R93: the masks and matches of R91 select the command; at most one row matches; a word that matches no row is
illegal. -/
def Obligations.DecodeSelectsByMaskAndMatch : Prop :=
  ∀ w : Word,
    (w &&& 0xFFFC#16 = 0x0000#16 ↔ ∃ r b, decode w = .ok (.tick r b)) ∧
    (w &&& 0xFF00#16 = 0x1000#16 ↔ ∃ b, decode w = .ok (.hostLed b)) ∧
    (w &&& 0xF000#16 = 0x2000#16 ↔ ∃ n b, decode w = .ok (.setReport n b)) ∧
    (w &&& 0xFFFF#16 = 0x3000#16 ↔ decode w = .ok .getReport) ∧
    (w &&& 0xFFFF#16 = 0x4000#16 ↔ decode w = .ok .getIdle) ∧
    (w &&& 0xFF00#16 = 0x5000#16 ↔ ∃ b, decode w = .ok (.setIdle b)) ∧
    (w &&& 0xFF00#16 = 0x6000#16 ↔ ∃ q, decode w = .ok (.ctrlOther q)) ∧
    (∀ r ∈ opcodeRows, ∀ r' ∈ opcodeRows, r.hits w = true → r'.hits w = true → r = r') ∧
    ((∀ r ∈ opcodeRows, r.hits w = false) ↔ ∃ why, decode w = .error why)

/-- R92: each operand is the field of the word it is said to be, zero-extended. -/
def Obligations.OperandsAreTheirFields : Prop :=
  ∀ w : Word,
    (∀ r b, decode w = .ok (.tick r b) → r = w.getLsbD 1 ∧ b = w.getLsbD 0) ∧
    (∀ b, decode w = .ok (.hostLed b) → b.toNat = w.toNat % 256) ∧
    (∀ n b, decode w = .ok (.setReport n b) → n = w.toNat / 256 % 16 ∧ b.toNat = w.toNat % 256) ∧
    (∀ b, decode w = .ok (.setIdle b) → b.toNat = w.toNat % 256) ∧
    (∀ q, decode w = .ok (.ctrlOther q) → q.toNat = w.toNat % 256)

/-- The words R95 and R96 call illegal: every word whose opcode is reserved and every word with a reserved bit set;
SET_REPORT has no reserved bit. MODEL (log 9, from R97): a step refuses each of them by name, in every state, the
halted one included. -/
def Obligations.ReservedWordsAreRefused : Prop :=
  ∀ (s : State) (w : Word) (rest : List Input), s.inputs = ⟨false, w⟩ :: rest →
    (7 ≤ w.toNat / 4096 → step s = .refused (.illegalWord .reservedOpcode)) ∧
    (w.toNat / 4096 = 0 → w.toNat / 4 % 1024 ≠ 0 → step s = .refused (.illegalWord .reservedBits)) ∧
    (w.toNat / 4096 = 1 ∨ w.toNat / 4096 = 5 ∨ w.toNat / 4096 = 6 → w.toNat / 256 % 16 ≠ 0 →
      step s = .refused (.illegalWord .reservedBits)) ∧
    (w.toNat / 4096 = 3 ∨ w.toNat / 4096 = 4 → w.toNat % 4096 ≠ 0 →
      step s = .refused (.illegalWord .reservedBits)) ∧
    (w.toNat / 4096 = 2 → ∃ n b, decode w = .ok (.setReport n b))

/-- Sample words of every family, from 95_test_vectors.md section 2.6 and R91. -/
def Obligations.SampleWordsDecode : Prop :=
  decode 0b0000000000000010#16 = .ok (.tick true false) ∧
  decode 0b0000000000000001#16 = .ok (.tick false true) ∧
  decode 0b0001000011111111#16 = .ok (.hostLed 0xFF#8) ∧
  decode 0b0010111100000010#16 = .ok (.setReport 15 0x02#8) ∧
  decode 0b0011000000000000#16 = .ok .getReport ∧
  decode 0b0100000000000000#16 = .ok .getIdle ∧
  decode 0b0101000010101011#16 = .ok (.setIdle 0xAB#8) ∧
  decode 0b0110000011111111#16 = .ok (.ctrlOther 0xFF#8) ∧
  decode 0b0000000000000100#16 = .error .reservedBits ∧
  decode 0b0111000000000000#16 = .error .reservedOpcode

/-- R100, R101: each line of a command script stands for the word of the command it spells, a SET_REPORT length above
15 written as 15, and each pseudo-command for the word the table prints. -/
def Obligations.ScriptLinesStandForWords : Prop :=
  (∀ r b : Bool, (AsmLine.tick r.toNat b.toNat).input = some (inputOf (.tick r b))) ∧
  (∀ n b : Nat, b < 256 →
    (AsmLine.led b).input = some (inputOf (.hostLed (BitVec.ofNat 8 b))) ∧
    (AsmLine.setRpt n b).input = some (inputOf (.setReport (min n 15) (BitVec.ofNat 8 b))) ∧
    (AsmLine.setIdle b).input = some (inputOf (.setIdle (BitVec.ofNat 8 b))) ∧
    (AsmLine.ctrl b).input = some (inputOf (.ctrlOther (BitVec.ofNat 8 b))) ∧
    (AsmLine.ledOut b).input = some (inputOf (.setReport 1 (BitVec.ofNat 8 b)))) ∧
  AsmLine.getRpt.input = some (inputOf .getReport) ∧
  AsmLine.getIdle.input = some (inputOf .getIdle) ∧
  AsmLine.reset.input = some Input.assertReset ∧
  AsmLine.press.input = some ⟨false, 0x0002#16⟩ ∧
  AsmLine.released.input = some ⟨false, 0x0003#16⟩ ∧
  (AsmLine.busy 0).input = some ⟨false, 0x0000#16⟩ ∧
  (AsmLine.busy 1).input = some ⟨false, 0x0001#16⟩

/-! ## The step (00_scope.md R18, 20_memory.md R80) -/

/-- A step runs the command its input decodes to, as one whole, and adds one record of its outputs to the trace; no
command is refused.
MODEL (logs 1, 2): the schedule and the trace are the model's own fields. -/
def Obligations.StepRunsTheDecodedCommand : Prop :=
  ∀ (s : State) (w : Word) (rest : List Input) (i : Instr),
    s.inputs = ⟨false, w⟩ :: rest → decode w = .ok i →
    (∀ t, exec i { s with inputs := rest } = .next t →
      step s = .next { t with trace := t.trace ++ [⟨t.inEmit, t.wdtService, t.ctrlResp, t.capsOn⟩] }) ∧
    (∀ f, exec i { s with inputs := rest } = .fault f → step s = .fault f) ∧
    (∀ r, exec i { s with inputs := rest } ≠ .refused r)

/-- Every step takes exactly one input off the schedule and adds exactly one record to the trace; with no input it
changes nothing but the output ports, which are deasserted. MODEL (logs 1, 2). -/
def Obligations.OneInputOneRecord : Prop :=
  ∀ s t : State, step s = .next t →
    (s.inputs = [] → t = { s with inEmit := none, wdtService := false, ctrlResp := none }) ∧
    (∀ inp rest, s.inputs = inp :: rest →
      t.inputs = rest ∧ t.trace = s.trace ++ [⟨t.inEmit, t.wdtService, t.ctrlResp, t.capsOn⟩])

/-- R72: no command and no RESET writes MSG: every index reads after a step as it read before. -/
def Obligations.MessageRomIsNeverWritten : Prop :=
  ∀ s t : State, step s = .next t → t.msg = s.msg ∧ ∀ a, t.msg.read a = s.msg.read a

/-! ## RESET (70_reset_and_hazards.md) -/

/-- The table of R250: RESET gives every register its reset value in one step, whatever the state, and asserts no
output. MODEL (log 3, from R229): whatever word is on CMD beside RESET, an illegal one included, is dropped. MODEL
(log 6): the zeros of CAPS_ON, TOGGLE_CNT, CURSOR, CUR_CHAR and HALTED are the spec's decision D5, and IDLE_RATE takes
the open IDLE_RATE_RESET. -/
def Obligations.ResetSetsEveryRegister : Prop :=
  ∀ (s : State) (w : Word) (rest : List Input), s.inputs = ⟨true, w⟩ :: rest →
    ∃ t, step s = .next t ∧ t.rptMod = 0x00#8 ∧ t.rptRsv = 0x00#8 ∧
      t.rptKey = List.replicate s.build.nKeys.toNat 0x00#8 ∧ t.ledState = 0xFF#8 ∧ t.capsOn = false ∧
      t.indicator = false ∧ t.toggleCnt = 0x00#8 ∧ t.seq = .idle ∧ t.seq.code = 0b00#2 ∧ t.cursor = 0 ∧
      t.curChar = 0x00#8 ∧ t.idleRate = s.build.idleRateReset ∧ t.halted = false ∧
      t.inEmit = none ∧ t.wdtService = false ∧ t.ctrlResp = none

/-- R251: two states of one chip that RESET is applied to end in the same registers: nothing survives but the build
parameters and the ROM, which do. MODEL (log 3): whatever words are on CMD beside RESET are dropped. MODEL (logs 1, 2,
17): the schedule goes on and the trace keeps what was seen. -/
def Obligations.NothingElseSurvivesReset : Prop :=
  ∀ (s s' : State) (w w' : Word) (rest rest' : List Input),
    s.inputs = ⟨true, w⟩ :: rest → s'.inputs = ⟨true, w'⟩ :: rest' → s.build = s'.build → s.msg = s'.msg →
    ∃ t t', step s = .next t ∧ step s' = .next t' ∧ SameBlock t t' ∧ t.build = s.build ∧ t.msg = s.msg ∧
      t.inputs = rest ∧ t.trace = s.trace ++ [⟨none, false, none, false⟩]

/-- The model's state after reset holds the values of R250 for the chip whose open parameters Config names (logs 4, 6:
the message, the slot count and the idle rate are values nothing is known of). -/
def Obligations.ResetStateIsTheBootState : Prop :=
  State.reset = State.boot Config.build Config.message [] ∧ messageWf Config.message = true ∧
    State.reset.readRpt = zeroReport Config.build ∧ State.reset.ledValid = false ∧ State.reset.trip = false

/-! ## The Keycode Mapper (41_mapper.md) -/

/-- R112, R113, R114: letters, case-insensitively, with the shift of case XOR caps. -/
def Obligations.LettersMapWithCaseXorCaps : Prop :=
  ∀ (c : Byte) (caps : Bool),
    (0x61 ≤ c.toNat → c.toNat ≤ 0x7A →
      (mapKey c caps).key.toNat = c.toNat - 0x61 + 0x04 ∧
      (mapKey c caps).mod = if caps then Config.modShift else Config.modNone) ∧
    (0x41 ≤ c.toNat → c.toNat ≤ 0x5A →
      (mapKey c caps).key.toNat = c.toNat - 0x41 + 0x04 ∧
      (mapKey c caps).mod = if caps then Config.modNone else Config.modShift)

/-- R115, R116: digits, never shifted, '0' after '9'. R118: ':' and ';' share 0x33. The pairs of R117: the shifted
symbols share the digits' keys with shift forced on; MODEL (log 13, PRESUMED): the codes of the ten symbols, ASCII,
are general knowledge in the spec. All whatever caps is. -/
def Obligations.DigitsAndSymbolsIgnoreCaps : Prop :=
  ∀ caps : Bool,
    (∀ c : Byte, 0x31 ≤ c.toNat → c.toNat ≤ 0x39 →
      (mapKey c caps).mod = Config.modNone ∧ (mapKey c caps).key.toNat = c.toNat - 0x31 + 0x1E) ∧
    mapKey 0x30#8 caps = ⟨Config.modNone, 0x27#8⟩ ∧
    [0x21#8, 0x40#8, 0x23#8, 0x24#8, 0x25#8, 0x5E#8, 0x26#8, 0x2A#8, 0x28#8, 0x29#8].map (mapKey · caps) =
      [0x1E#8, 0x1F#8, 0x20#8, 0x21#8, 0x22#8, 0x23#8, 0x24#8, 0x25#8, 0x26#8, 0x27#8].map
        (fun k => (⟨Config.modShift, k⟩ : KeyPair)) ∧
    mapKey 0x3A#8 caps = ⟨Config.modShift, 0x33#8⟩ ∧ mapKey 0x3B#8 caps = ⟨Config.modNone, 0x33#8⟩

/-- R119: every other code maps to the neutral pair, as the terminator does. INFERENCE (R119 marks it as derived): the
codes are those listed, and there are 182 of them. -/
def Obligations.OtherCharactersMapToNeutral : Prop :=
  ∀ caps : Bool,
    (∀ c : Byte,
      c.toNat ≤ 0x20 ∨ c.toNat = 0x22 ∨ c.toNat = 0x27 ∨ (0x2B ≤ c.toNat ∧ c.toNat ≤ 0x2F) ∨
        (0x3C ≤ c.toNat ∧ c.toNat ≤ 0x3F) ∨ (0x5B ≤ c.toNat ∧ c.toNat ≤ 0x5D) ∨
        (0x5F ≤ c.toNat ∧ c.toNat ≤ 0x60) ∨ 0x7B ≤ c.toNat →
      mapKey c caps = ⟨Config.modNone, 0x00#8⟩ ∧ mapKey c caps = mapKey 0x00#8 caps) ∧
    ((List.range 256).filter fun c => mapKey (BitVec.ofNat 8 c) caps == ⟨Config.modNone, 0x00#8⟩).length = 182

/-- INFERENCE (R122 marks it as derived): the Mapper's output set; no modifier without a key. -/
def Obligations.MapperOutputSet : Prop :=
  ∀ (c : Byte) (caps : Bool),
    ((mapKey c caps).mod = Config.modNone ∨ (mapKey c caps).mod = Config.modShift) ∧
    ((mapKey c caps).key = 0x00#8 ∨ (0x04 ≤ (mapKey c caps).key.toNat ∧ (mapKey c caps).key.toNat ≤ 0x27) ∨
      (mapKey c caps).key = 0x33#8) ∧
    ((mapKey c caps).key = 0x00#8 → (mapKey c caps).mod = Config.modNone)

/-- INFERENCE (R121 marks its table as derived): the rule-by-rule Mapper and the printed table of the 74 mapped codes
agree on every code and both caps states. MODEL (logs 5, 13, PRESUMED): the table prints 0x02 for shift, and ASCII
codes. -/
def Obligations.MapperAgreesWithTheTable : Prop :=
  mapTable.length = 74 ∧ (mapTable.map MapRow.code).Nodup ∧
    ∀ (c : Byte) (caps : Bool), mapKey c caps = tableKey c caps

/-! ## The Report Buffer (42_report_buffer.md) -/

/-- R140: setKey overwrites the modifier and slot 0, clears every other slot, leaves RPT_RSV at 0x00, and writes
nothing else. R141: release is setKey(0, NONE). INFERENCE (R141 marks it as derived): after it every byte of the
report is 0x00. -/
def Obligations.SetKeyAndReleaseStageTheReport : Prop :=
  ∀ (k m : Byte) (s : State),
    s.setKey k m =
        { s with rptMod := m, rptKey := k :: List.replicate (s.build.nKeys.toNat - 1) 0x00#8 } ∧
      (s.setKey k m).readRpt = m :: 0x00#8 :: k :: List.replicate (s.build.nKeys.toNat - 1) 0x00#8 ∧
      (s.setKey k m).readRpt.length = s.build.rlen ∧
      s.release = s.setKey 0x00#8 Config.modNone ∧ s.release.readRpt = List.replicate s.build.rlen 0x00#8

/-- INFERENCE (R143 marks it as derived): only slot 0 ever holds a key, and no modifier is held without one: every
step keeps it from every state that has it, and so every reachable state of every chip has it. -/
def Obligations.ReportStaysABootKeyboardReport : Prop :=
  (∀ s t : State, ReportInv s → step s = .next t → ReportInv t) ∧
  ∀ s : State, Reachable s → ∃ m k,
    s.readRpt = m :: 0x00#8 :: k :: List.replicate (s.build.nKeys.toNat - 1) 0x00#8 ∧ (k = 0x00#8 → m = 0x00#8)

/-! ## The LED controller (43_led_controller.md) -/

/-- R150: HOST_LED halted, with a repeat of the stored byte, and with a new byte; everything else of the state is
unchanged and no output is asserted. -/
def Obligations.HostLedUpdatesTheLedController : Prop :=
  ∀ (b : Byte) (s : State),
    (s.halted = true →
      exec (.hostLed b) s = .next { s with inEmit := none, wdtService := false, ctrlResp := none }) ∧
    (s.halted = false → b = s.ledState →
      exec (.hostLed b) s = .next { s with inEmit := none, wdtService := false, ctrlResp := none }) ∧
    (s.halted = false → b ≠ s.ledState →
      exec (.hostLed b) s = .next { s with
        ledState := b
        capsOn := b.getLsbD 1
        toggleCnt := if b.getLsbD 1 = true ∧ s.capsOn = false
          then BitVec.ofNat 8 (min 255 (s.toggleCnt.toNat + 1)) else s.toggleCnt
        inEmit := none
        wdtService := false
        ctrlResp := none })

/-- R151: a byte delivered twice in a row, on either path, has the effect of one delivery. -/
def Obligations.LedByteIsDeduplicated : Prop :=
  ∀ (b : Byte) (s t : State),
    (exec (.hostLed b) s = .next t ∨ exec (.setReport 1 b) s = .next t) →
    (∃ u, exec (.hostLed b) t = .next u ∧ SameBlock t u) ∧
    (∃ u, exec (.setReport 1 b) t = .next u ∧ SameBlock t u)

/-- INFERENCE (R153 marks it as derived): a host byte 0xFF is a duplicate while the sentinel is stored, and is stored
like any byte otherwise. -/
def Obligations.HostSentinelByte : Prop :=
  ∀ s : State, s.halted = false → ∃ t, exec (.hostLed 0xFF#8) s = .next t ∧
    (s.ledState = 0xFF#8 → SameBlock s t) ∧
    (s.ledState ≠ 0xFF#8 → t.ledState = 0xFF#8 ∧ t.capsOn = true ∧ t.ledValid = false ∧
      (s.capsOn = false → t.toggleCnt.toNat = min 255 (s.toggleCnt.toNat + 1)) ∧
      (s.capsOn = true → t.toggleCnt = s.toggleCnt))

/-- INFERENCE (R154 marks it as derived), where CAPS_ON is bit 1 of the stored byte: a byte that differs from it in
other bits only is stored and neither moves CAPS_ON nor counts. MODEL (log 12): without that premise the sentinel is
the exception R152 names. -/
def Obligations.OtherLockBitsNeverCount : Prop :=
  ∀ (b : Byte) (s : State), s.halted = false → s.capsOn = s.ledState.getLsbD 1 →
    b.getLsbD 1 = s.ledState.getLsbD 1 →
    exec (.hostLed b) s = .next { s with ledState := b, inEmit := none, wdtService := false, ctrlResp := none }

/-- R111: CAPS_ON is bit 1 of LED_STATE in every state but those where the sentinel is stored, at which it may be 0:
every step keeps this. -/
def Obligations.CapsFollowsTheStoredByte : Prop :=
  ∀ s t : State, LedInv s → step s = .next t → LedInv t

/-- R36: LED_VALID rises only when a running block is given a byte other than 0xFF on one of the two LED paths. -/
def Obligations.LedValidNeedsAHostByte : Prop :=
  ∀ s t : State, step s = .next t → s.ledValid = false → t.ledValid = true →
    s.halted = false ∧ ∃ w rest b, s.inputs = ⟨false, w⟩ :: rest ∧ b ≠ 0xFF#8 ∧ t.ledState = b ∧
      (decode w = .ok (.hostLed b) ∨ decode w = .ok (.setReport 1 b))

/-- R152, R155, R159, R24: over any sequence of host LED bytes, each by HOST_LED or by SET_REPORT of length 1, the
counter adds the OFF→ON edges and saturates at 0xFF; no LED byte halts the block. MODEL (log 1): the schedule. -/
def Obligations.CounterCountsCapsEdges : Prop :=
  ∀ (s : State) (ds : List (LedPath × Byte)) (rest : List Input), s.halted = false →
    s.inputs = ds.map (fun d => inputOf (ledCommand d)) ++ rest →
    ∃ t, run ds.length s = .next t ∧ t.inputs = rest ∧ t.halted = false ∧
      t.toggleCnt.toNat = min 255 (s.toggleCnt.toNat + capsEdges s.ledState s.capsOn (ds.map Prod.snd))

/-- INFERENCE (R156 marks it as derived): with no press between the edges, the TICK after a sequence of host LED
bytes, on either path, halts the block when the count and the edges together reach 5 and does not when they stay
below; and n alternations of 0x02 and 0x00 are n edges. MODEL (log 1): the schedule. -/
def Obligations.FiveEdgesTripAndFourDoNot : Prop :=
  (∀ (s : State) (ds : List (LedPath × Byte)) (rdy btn : Bool) (rest : List Input), Inv s → s.halted = false →
    s.inputs = ds.map (fun d => inputOf (ledCommand d)) ++ inputOf (.tick rdy btn) :: rest →
    ∃ t, run (ds.length + 1) s = .next t ∧ t.inputs = rest ∧
      (5 ≤ s.toggleCnt.toNat + capsEdges s.ledState s.capsOn (ds.map Prod.snd) →
        t.halted = true ∧ t.wdtService = false) ∧
      (s.toggleCnt.toNat + capsEdges s.ledState s.capsOn (ds.map Prod.snd) < 5 →
        t.halted = false ∧ t.wdtService = true)) ∧
  ∀ (n : Nat) (led : Byte), led ≠ 0x02#8 →
    capsEdges led false (List.replicate n [0x02#8, 0x00#8]).flatten = n

/-! ## TICK and the key sequencer (44_sequencer.md) -/

/-- R223, R224: a TICK that finds the count at 5 or more halts the block and does nothing else: every other register
keeps its value, the watchdog is not serviced, nothing is emitted. -/
def Obligations.TripHaltsTheBlock : Prop :=
  ∀ (rdy btn : Bool) (s : State), s.halted = false → 5 ≤ s.toggleCnt.toNat →
    exec (.tick rdy btn) s =
      .next { s with halted := true, inEmit := none, wdtService := false, ctrlResp := none }

/-- R170, R177: a TICK with RDY = 0 services the watchdog and does nothing else; the button is not read. -/
def Obligations.NotReadyTickOnlyServices : Prop :=
  ∀ (btn : Bool) (s : State), s.halted = false → s.toggleCnt.toNat < 5 →
    exec (.tick false btn) s = .next { s with inEmit := none, wdtService := true, ctrlResp := none }

/-- R172: StepIdle, pressed and released. -/
def Obligations.IdleStep : Prop :=
  ∀ s : State, s.halted = false → s.toggleCnt.toNat < 5 → s.seq = .idle →
    exec (.tick true false) s = .next { s with
      toggleCnt := 0x00#8, seq := .characterPending, inEmit := none, wdtService := true, ctrlResp := none } ∧
    exec (.tick true true) s = .next { s with inEmit := none, wdtService := true, ctrlResp := none }

/-- R173: StepChar, on every character of the ROM, the terminator and the unmapped ones included; the button is not
read. The terminator, read only when the message is empty, stages and emits the all-zero report; INFERENCE (R173 marks
it as derived): so does every character with no key. -/
def Obligations.CharacterStep : Prop :=
  ∀ (btn : Bool) (c : Byte) (s : State), s.halted = false → s.toggleCnt.toNat < 5 →
    s.seq = .characterPending → s.msg.read s.cursor = some c →
    exec (.tick true btn) s = .next { s with
      curChar := c
      rptMod := (mapKey c s.capsOn).mod
      rptKey := (mapKey c s.capsOn).key :: List.replicate (s.build.nKeys.toNat - 1) 0x00#8
      seq := .releasePending
      inEmit := some ((mapKey c s.capsOn).mod :: 0x00#8 :: (mapKey c s.capsOn).key ::
        List.replicate (s.build.nKeys.toNat - 1) 0x00#8)
      wdtService := true
      ctrlResp := none } ∧
    (RomInv s → CursorInv s → c = 0x00#8 → s.msg.len = 0) ∧
    ((mapKey c s.capsOn).key = 0x00#8 ∨ c = 0x00#8 →
      (mapKey c s.capsOn).mod :: 0x00#8 :: (mapKey c s.capsOn).key ::
        List.replicate (s.build.nKeys.toNat - 1) 0x00#8 = List.replicate s.build.rlen 0x00#8)

/-- R174: StepRelease emits the all-zero report; it wraps when the cursor is at the terminator (the next index is then
not read) or the next index is, and otherwise moves to the next character. The first test is true only when the
message is empty; INFERENCE (R174 marks it as derived): the increment stays within the message. -/
def Obligations.ReleaseStep : Prop :=
  ∀ (btn : Bool) (c : Byte) (s : State), s.halted = false → s.toggleCnt.toNat < 5 →
    s.seq = .releasePending → s.msg.read s.cursor = some c →
    (c = 0x00#8 ∨ s.msg.read (s.cursor + 1) = some 0x00#8 →
      exec (.tick true btn) s = .next { s with
        rptMod := 0x00#8
        rptKey := List.replicate s.build.nKeys.toNat 0x00#8
        cursor := 0
        seq := .awaitButtonRelease
        inEmit := some (List.replicate s.build.rlen 0x00#8)
        wdtService := true
        ctrlResp := none }) ∧
    (∀ d, c ≠ 0x00#8 → s.msg.read (s.cursor + 1) = some d → d ≠ 0x00#8 →
      exec (.tick true btn) s = .next { s with
        rptMod := 0x00#8
        rptKey := List.replicate s.build.nKeys.toNat 0x00#8
        cursor := s.cursor + 1
        seq := .characterPending
        inEmit := some (List.replicate s.build.rlen 0x00#8)
        wdtService := true
        ctrlResp := none }) ∧
    (RomInv s → CursorInv s →
      (c = 0x00#8 → s.msg.len = 0) ∧
      (c ≠ 0x00#8 → ∃ d, s.msg.read (s.cursor + 1) = some d ∧ (d ≠ 0x00#8 → s.cursor + 1 < s.msg.len)))

/-- R175: StepAwait, pressed and released. -/
def Obligations.AwaitStep : Prop :=
  ∀ s : State, s.halted = false → s.toggleCnt.toNat < 5 → s.seq = .awaitButtonRelease →
    exec (.tick true true) s = .next { s with
      seq := .idle, inEmit := none, wdtService := true, ctrlResp := none } ∧
    exec (.tick true false) s = .next { s with inEmit := none, wdtService := true, ctrlResp := none }

/-- R176: IN_EMIT is 1 exactly in the ticks whose step is StepChar or StepRelease, with the report after the step's
write; no other command emits. -/
def Obligations.EmissionsAreCharAndReleaseSteps : Prop :=
  ∀ (i : Instr) (s t : State), exec i s = .next t →
    (t.inEmit ≠ none ↔ (∃ btn, i = .tick true btn) ∧ s.halted = false ∧ s.toggleCnt.toNat < 5 ∧
      (s.seq = .characterPending ∨ s.seq = .releasePending)) ∧
    (∀ d, t.inEmit = some d → d = t.rptMod :: 0x00#8 :: t.rptKey)

/-- R52: WDT_SERVICE is asserted by every TICK while HALTED = 0 and TRIP = 0, and by nothing else. -/
def Obligations.WatchdogIsServicedByRunningTicks : Prop :=
  ∀ (i : Instr) (s t : State), exec i s = .next t →
    (t.wdtService = true ↔ (∃ rdy btn, i = .tick rdy btn) ∧ s.halted = false ∧ s.toggleCnt.toNat < 5)

/-- R180: SEQ comes back to Idle only through StepAwait or RESET. INFERENCE (R180 marks it as derived): no command but
TICK writes SEQ or CURSOR. -/
def Obligations.IdleOnlyThroughRelease : Prop :=
  (∀ s t : State, step s = .next t → s.seq ≠ .idle → t.seq = .idle →
    ∃ inp rest, s.inputs = inp :: rest ∧
      (inp.reset = true ∨ decode inp.cmd = .ok (.tick true true) ∧ s.seq = .awaitButtonRelease)) ∧
  ∀ (i : Instr) (s t : State), exec i s = .next t → (∀ rdy btn, i ≠ .tick rdy btn) →
    t.seq = s.seq ∧ t.cursor = s.cursor

/-- INFERENCE (R41, R179 mark it as derived): the cursor rests at 0 and is below L, or 0 when the message is empty:
every step keeps this over a programmed ROM; and CURSOR, a number in the model (log 7), fits the width R30 gives it.
-/
def Obligations.CursorStaysInTheMessage : Prop :=
  (∀ s t : State, RomInv s → CursorInv s → step s = .next t → CursorInv t) ∧
  ∀ s : State, CursorInv s → s.cursor < 2 ^ cursorWidth s.msg.len

/-- INFERENCE (R178, R179 mark it as derived): with no other command between its ticks, every tick ready and the
button released at the last, a press cycle of a message of length L >= 1 takes 2L + 2 ticks, whatever the button reads
in the middle; it emits the report of each character and a release frame after each, in order, services the watchdog
in every tick, and ends re-armed at the start of the message. Not-ready ticks, host commands and further held ticks
between them are left to the one-step statements. MODEL (logs 1, 2): the schedule, and the records of the trace. -/
def Obligations.PressCycleTypesTheMessage : Prop :=
  ∀ (s : State) (m : List Byte) (btns : List Bool) (rest : List Input),
    s.msg = Memory.rom m → messageWf m = true → m ≠ [] → s.halted = false → s.toggleCnt.toNat < 5 →
    s.seq = .idle → s.cursor = 0 → btns.length = 2 * m.length →
    s.inputs = inputOf (.tick true false) :: btns.map (fun b => inputOf (.tick true b)) ++
      inputOf (.tick true true) :: rest →
    ∃ t records, run (2 * m.length + 2) s = .next t ∧ t.seq = .idle ∧ t.cursor = 0 ∧ t.inputs = rest ∧
      t.halted = false ∧ t.trace = s.trace ++ records ∧ records.length = 2 * m.length + 2 ∧
      (∀ r ∈ records, r.wdtService = true ∧ r.ctrlResp = none) ∧
      records.filterMap OutputRecord.inEmit = messageReports s.build s.capsOn m

/-- Two blocks that differ only in LED_STATE, CUR_CHAR and IDLE_RATE, with the same CAPS_ON, type alike: a TICK puts
out the same and moves the sequencer alike (R42, R43, R111, R183). -/
def Obligations.TypingIgnoresOtherRegisters : Prop :=
  ∀ (rdy btn : Bool) (s t : State) (led cur idle : Byte), exec (.tick rdy btn) s = .next t →
    ∃ u, exec (.tick rdy btn) { s with ledState := led, curChar := cur, idleRate := idle } = .next u ∧
      u.inEmit = t.inEmit ∧ u.wdtService = t.wdtService ∧ u.ctrlResp = t.ctrlResp ∧ u.seq = t.seq ∧
      u.cursor = t.cursor ∧ u.halted = t.halted ∧ u.toggleCnt = t.toggleCnt ∧ u.readRpt = t.readRpt

/-- The frame of TICK (R48): it never writes the LED registers but for the counter's clear on a press, nor IDLE_RATE,
MSG or the build parameters; it answers no request; and it writes the report only in a tick that emits it (R144). -/
def Obligations.TickFrame : Prop :=
  ∀ (rdy btn : Bool) (s t : State), exec (.tick rdy btn) s = .next t →
    t.ledState = s.ledState ∧ t.capsOn = s.capsOn ∧ t.idleRate = s.idleRate ∧ t.build = s.build ∧
    t.inputs = s.inputs ∧ t.trace = s.trace ∧ t.ctrlResp = none ∧ (∀ a, t.msg.read a = s.msg.read a) ∧
    (t.toggleCnt = s.toggleCnt ∨
      s.seq = .idle ∧ rdy = true ∧ btn = false ∧ t.toggleCnt = 0x00#8 ∧ t.seq = .characterPending) ∧
    (t.inEmit = none → t.rptMod = s.rptMod ∧ t.rptKey = s.rptKey ∧ t.curChar = s.curChar ∧ t.cursor = s.cursor) ∧
    (t.cursor ≠ s.cursor → s.seq = .releasePending) ∧ (t.curChar ≠ s.curChar → s.seq = .characterPending)

/-- Every command answers a next state: those of the transport in every state, TICK in every state with the invariant
(R220: there are no other faults). -/
def Obligations.EveryCommandCompletes : Prop :=
  (∀ (i : Instr) (s : State), i.agent = .transport → ∃ t, exec i s = .next t) ∧
  ∀ (rdy btn : Bool) (s : State), Inv s → ∃ t, exec (.tick rdy btn) s = .next t

/-- R21: where a sequencer step would read MSG beyond the terminator, which no run reaches, the model faults by name
(log 8). -/
def Obligations.ReadBeyondTheMessageFaults : Prop :=
  ∀ (btn : Bool) (s : State), RomInv s → s.halted = false → s.toggleCnt.toNat < 5 →
    (s.seq = .characterPending ∨ s.seq = .releasePending) → s.msg.len < s.cursor →
    exec (.tick true btn) s = .fault (.msgOutOfRange s.cursor)

/-! ## Control requests (45_control_requests.md) -/

/-- R200: GET_REPORT answers the report with the modifier and the first keycode neutral and writes nothing; halted, it
answers nothing. INFERENCE (R200 marks it as derived): under the invariant of R143 the answer is all zero. -/
def Obligations.GetReportAnswersAMaskedCopy : Prop :=
  ∀ s : State,
    (s.halted = true →
      exec .getReport s = .next { s with inEmit := none, wdtService := false, ctrlResp := none }) ∧
    (∀ k keys, s.halted = false → s.rptKey = k :: keys →
      exec .getReport s = .next { s with
        inEmit := none, wdtService := false, ctrlResp := some (0x00#8 :: 0x00#8 :: 0x00#8 :: keys) }) ∧
    (s.halted = false → ReportInv s →
      exec .getReport s = .next { s with
        inEmit := none, wdtService := false, ctrlResp := some (List.replicate s.build.rlen 0x00#8) })

/-- R200: whatever key is in flight, GET_REPORT answers the same: two states that differ only in the modifier and the
first keycode cannot be told apart by it. -/
def Obligations.GetReportNeverLeaksTheKey : Prop :=
  ∀ (s : State) (m m' k k' : Byte) (keys : List Byte),
    ∃ t t', exec .getReport { s with rptMod := m, rptKey := k :: keys } = .next t ∧
      exec .getReport { s with rptMod := m', rptKey := k' :: keys } = .next t' ∧
      t.outputs = t'.outputs ∧ t.rptMod = m ∧ t.rptKey = k :: keys

/-- R201: SET_REPORT of length 1 is a host LED byte; of any other length it changes nothing; both answer with no
data, and a halted block does neither. -/
def Obligations.SetReportDeliversOneByte : Prop :=
  ∀ (len : Nat) (b : Byte) (s : State),
    (s.halted = true →
      exec (.setReport len b) s = .next { s with inEmit := none, wdtService := false, ctrlResp := none }) ∧
    (s.halted = false → len ≠ 1 ∨ b = s.ledState →
      exec (.setReport len b) s = .next { s with inEmit := none, wdtService := false, ctrlResp := some [] }) ∧
    (s.halted = false → len = 1 → b ≠ s.ledState →
      exec (.setReport len b) s = .next { s with
        ledState := b
        capsOn := b.getLsbD 1
        toggleCnt := if b.getLsbD 1 = true ∧ s.capsOn = false
          then BitVec.ofNat 8 (min 255 (s.toggleCnt.toNat + 1)) else s.toggleCnt
        inEmit := none
        wdtService := false
        ctrlResp := some [] })

/-- R202: GET_IDLE answers IDLE_RATE and writes nothing; as long as no SET_IDLE was given since power-on, the answer of a
running block is IDLE_RATE_RESET, whatever that is. MODEL (logs 1, 2): the schedule, and the steps with no input. MODEL
(log 3): a word on CMD beside RESET, a SET_IDLE included, is dropped. MODEL (log 6): IDLE_RATE after RESET is the open
IDLE_RATE_RESET. -/
def Obligations.GetIdleAnswersTheIdleRate : Prop :=
  (∀ (b : Build) (m : List Byte) (inputs : List Input) (k : Nat) (s : State),
    (∀ inp ∈ inputs, inp.reset = true ∨ ∀ v, decode inp.cmd ≠ .ok (.setIdle v)) →
    run k (State.boot b m inputs) = .next s → s.halted = false →
    ∃ t, exec .getIdle s = .next t ∧ t.ctrlResp = some [b.idleRateReset]) ∧
  ∀ s : State,
    (s.halted = true →
      exec .getIdle s = .next { s with inEmit := none, wdtService := false, ctrlResp := none }) ∧
    (s.halted = false →
      exec .getIdle s = .next { s with inEmit := none, wdtService := false, ctrlResp := some [s.idleRate] })

/-- R203: SET_IDLE stores its byte as given and writes nothing else. -/
def Obligations.SetIdleStoresTheByte : Prop :=
  ∀ (b : Byte) (s : State),
    (s.halted = true →
      exec (.setIdle b) s = .next { s with inEmit := none, wdtService := false, ctrlResp := none }) ∧
    (s.halted = false →
      exec (.setIdle b) s = .next { s with
        idleRate := b, inEmit := none, wdtService := false, ctrlResp := some [] })

/-- R204: an unsupported request completes with no data and changes nothing, whatever its code. -/
def Obligations.UnsupportedRequestsChangeNothing : Prop :=
  ∀ (req : Byte) (s : State),
    (s.halted = true →
      exec (.ctrlOther req) s = .next { s with inEmit := none, wdtService := false, ctrlResp := none }) ∧
    (s.halted = false →
      exec (.ctrlOther req) s = .next { s with inEmit := none, wdtService := false, ctrlResp := some [] })

/-- INFERENCE (R205 marks it as derived): no control request touches the sequencer or the report, emits, or services
the watchdog, and only SET_REPORT of length 1 writes LED state; SET_IDLE alone writes IDLE_RATE, and no byte of MSG
changes. -/
def Obligations.ControlRequestsSpareTheSequencer : Prop :=
  ∀ (i : Instr) (s t : State), exec i s = .next t → (∀ rdy btn, i ≠ .tick rdy btn) → (∀ b, i ≠ .hostLed b) →
    t.seq = s.seq ∧ t.cursor = s.cursor ∧ t.curChar = s.curChar ∧ t.rptMod = s.rptMod ∧ t.rptKey = s.rptKey ∧
    t.inEmit = none ∧ t.wdtService = false ∧ t.halted = s.halted ∧ t.build = s.build ∧ t.inputs = s.inputs ∧
    t.trace = s.trace ∧ (∀ a, t.msg.read a = s.msg.read a) ∧
    ((∀ b, i ≠ .setReport 1 b) →
      t.ledState = s.ledState ∧ t.capsOn = s.capsOn ∧ t.toggleCnt = s.toggleCnt) ∧
    ((∀ b, i ≠ .setIdle b) → t.idleRate = s.idleRate)

/-- R53: exactly the five control requests answer, while HALTED = 0, and an answer has 0 to RLEN bytes. -/
def Obligations.ControlResponses : Prop :=
  ∀ (i : Instr) (s t : State), exec i s = .next t →
    (t.ctrlResp ≠ none ↔ s.halted = false ∧ (∀ rdy btn, i ≠ .tick rdy btn) ∧ ∀ b, i ≠ .hostLed b) ∧
    (ReportInv s → ∀ d, t.ctrlResp = some d → d.length ≤ s.build.rlen)

/-- R43, R203: IDLE_RATE changes only by SET_IDLE in a running block, to the byte it carries, or by RESET. -/
def Obligations.IdleRateChangesOnlyBySetIdle : Prop :=
  ∀ s t : State, step s = .next t → t.idleRate ≠ s.idleRate →
    ∃ inp rest, s.inputs = inp :: rest ∧
      (inp.reset = true ∧ t.idleRate = s.build.idleRateReset ∨
        s.halted = false ∧ inp.reset = false ∧ decode inp.cmd = .ok (.setIdle t.idleRate))

/-! ## The halt (60_exceptions.md) -/

/-- R225: while HALTED = 1 every command has no effect: no state is written and every output is deasserted. -/
def Obligations.HaltedCommandsHaveNoEffect : Prop :=
  ∀ (i : Instr) (s : State), s.halted = true →
    exec i s = .next { s with inEmit := none, wdtService := false, ctrlResp := none }

/-- R222, R224, R226: only a TICK at a count of 5 or more halts the block, with every other register as it was; only
RESET leaves the halt. -/
def Obligations.HaltEntryAndExit : Prop :=
  ∀ s t : State, step s = .next t →
    (s.halted = false → t.halted = true →
      5 ≤ s.toggleCnt.toNat ∧ SameBlock { s with halted := true } t ∧
      ∃ w rest rdy btn, s.inputs = ⟨false, w⟩ :: rest ∧ decode w = .ok (.tick rdy btn)) ∧
    (s.halted = true → t.halted = false → ∃ w rest, s.inputs = ⟨true, w⟩ :: rest)

/-- R225, R226, R182: a halted block stays as it is over any sequence of commands, silent throughout (so the key it
holds is not released), until RESET, after which it runs again with a cleared count and report. MODEL (logs 1, 2, 3, 11):
the schedule, one silent record of the trace for each command, and that the word on CMD beside RESET is dropped. -/
def Obligations.HaltedUntilReset : Prop :=
  ∀ (s : State) (cmds : List Instr) (w : Word) (rest : List Input), s.halted = true →
    (∀ i ∈ cmds, i.wf = true) → s.inputs = cmds.map inputOf ++ ⟨true, w⟩ :: rest →
    ∃ t u, run cmds.length s = .next t ∧ SameBlock s t ∧
      t.trace = s.trace ++ List.replicate cmds.length ⟨none, false, none, s.capsOn⟩ ∧
      run (cmds.length + 1) s = .next u ∧ u.inputs = rest ∧ u.halted = false ∧ u.toggleCnt = 0x00#8 ∧
      u.seq = .idle ∧ u.cursor = 0 ∧ u.rptMod = 0x00#8 ∧ u.rptKey = List.replicate s.build.nKeys.toNat 0x00#8 ∧
      u.readRpt = zeroReport s.build ∧ u.inEmit = none

/-! ## The invariant -/

/-- Every step keeps the invariant of the block: the ROM is a programmed message, the report holds the key of the
character under the cursor between its two steps and no key otherwise, the cursor is in the message, CAPS_ON follows
the stored byte, and a halted block shows the count that halted it. -/
def Obligations.EveryStepKeepsTheInvariant : Prop :=
  ∀ s t : State, Inv s → step s = .next t → Inv t

/-- The invariant holds after RESET, for every chip and every legal message, and at the model's reset state. -/
def Obligations.ResetHasTheInvariant : Prop :=
  (∀ (b : Build) (m : List Byte) (inputs : List Input), messageWf m = true → Inv (State.boot b m inputs)) ∧
    Inv State.reset

/-- INFERENCE (R71 marks it as derived): under the rules every MSG index read is at most L: no reachable state of any
chip, with any inputs, faults. MODEL (log 9, from R97): a reachable state refuses nothing but an illegal word. -/
def Obligations.ReachableStatesNeverFault : Prop :=
  ∀ s : State, Reachable s →
    (∀ f, step s ≠ .fault f) ∧
    (∀ r, step s = .refused r → ∃ w rest why, s.inputs = ⟨false, w⟩ :: rest ∧ decode w = .error why ∧
      r = .illegalWord why)

/-- R51, R10: in a state with the invariant, every emitted report has exactly RLEN bytes, and its reserved byte is
0x00. -/
def Obligations.ReportsHaveTheDeclaredLength : Prop :=
  ∀ s t : State, Inv s → step s = .next t → ∀ d, t.inEmit = some d →
    d.length = s.build.rlen ∧ d[1]? = some 0x00#8

/-- R54, R35, R36, R38, R39: the status outputs are these functions of the registers. R40: the two-bit codes of SEQ
are 0, 1, 2, 3 in the order of the states, and all four are legal. -/
def Obligations.StatusOutputsAndSequencerCodes : Prop :=
  (∀ s : State, s.indicator = s.capsOn ∧ s.haltedOut = s.halted ∧
    (s.ledValid = true ↔ s.ledState.toNat ≠ 255) ∧ s.ledNum = s.ledState.getLsbD 0 ∧
    s.ledCaps = s.ledState.getLsbD 1 ∧ s.ledScroll = s.ledState.getLsbD 2 ∧ (s.trip = true ↔ 5 ≤ s.toggleCnt.toNat)) ∧
  [Seq.idle, .characterPending, .releasePending, .awaitButtonRelease].map Seq.code = [0#2, 1#2, 2#2, 3#2] ∧
    (∀ q : Seq, Seq.ofCode q.code = q) ∧ ∀ c : BitVec 2, (Seq.ofCode c).code = c
end

