-- ==== Sys2Proof/Laws/Codec.lean ====
section
/-! SUPPORT. A command word as its three fields, OP, w[11:8] and w[7:0]: what each row of the opcode table asks of them,
and what the decoder answers. -/

namespace Sys2Proof

/-- `w[11:8]`. -/
abbrev nibbleOf (w : Word) : BitVec 4 := w.extractLsb' 8 4

/-- A word laid out from its fields. -/
abbrev wordOf (op n : BitVec 4) (b : Byte) : Word := op ++ n ++ b

@[simp] theorem opOf_wordOf (op n : BitVec 4) (b : Byte) : opOf (wordOf op n b) = op := by
  apply BitVec.eq_of_getLsbD_eq
  intro i hi
  interval_cases i <;> simp only [opOf, wordOf, BitVec.getLsbD_extractLsb', BitVec.getLsbD_append] <;> simp

@[simp] theorem nibbleOf_wordOf (op n : BitVec 4) (b : Byte) : nibbleOf (wordOf op n b) = n := by
  apply BitVec.eq_of_getLsbD_eq
  intro i hi
  interval_cases i <;> simp only [nibbleOf, wordOf, BitVec.getLsbD_extractLsb', BitVec.getLsbD_append] <;> simp

@[simp] theorem byteOf_wordOf (op n : BitVec 4) (b : Byte) : byteOf (wordOf op n b) = b := by
  apply BitVec.eq_of_getLsbD_eq
  intro i hi
  interval_cases i <;> simp only [byteOf, wordOf, BitVec.getLsbD_extractLsb', BitVec.getLsbD_append] <;> simp

/-- Every word is laid out from its fields. -/
theorem wordOf_fields (w : Word) : wordOf (opOf w) (nibbleOf w) (byteOf w) = w := by
  apply BitVec.eq_of_getLsbD_eq
  intro i hi
  interval_cases i <;> simp only [opOf, nibbleOf, byteOf, wordOf, BitVec.getLsbD_extractLsb', BitVec.getLsbD_append] <;> simp

theorem wordOf_toNat (op n : BitVec 4) (b : Byte) :
    (wordOf op n b).toNat = op.toNat * 4096 + n.toNat * 256 + b.toNat := by
  have h1 := n.isLt
  have h2 := b.isLt
  simp only [wordOf, BitVec.toNat_append]
  rw [← Nat.shiftLeft_add_eq_or_of_lt h1, ← Nat.shiftLeft_add_eq_or_of_lt h2]
  simp only [Nat.shiftLeft_eq]
  omega

theorem wordOf_inj (op op' n n' : BitVec 4) (b b' : Byte) :
    wordOf op n b = wordOf op' n' b' ↔ op = op' ∧ n = n' ∧ b = b' := by
  constructor
  · intro h
    refine ⟨?_, ?_, ?_⟩
    · simpa using congrArg opOf h
    · simpa using congrArg nibbleOf h
    · simpa using congrArg byteOf h
  · rintro ⟨rfl, rfl, rfl⟩; rfl

theorem wordOf_and (op op' n n' : BitVec 4) (b b' : Byte) :
    wordOf op n b &&& wordOf op' n' b' = wordOf (op &&& op') (n &&& n') (b &&& b') := by
  apply BitVec.eq_of_getLsbD_eq
  intro i hi
  interval_cases i <;> simp only [wordOf, BitVec.getLsbD_append, BitVec.getLsbD_and] <;> simp

/-- What a row asks of the fields: its mask and match, field by field. -/
theorem hits_wordOf (name : String) (mo mn vo vn op n : BitVec 4) (mb vb b : Byte) :
    OpcodeRow.hits ⟨name, wordOf mo mn mb, wordOf vo vn vb⟩ (wordOf op n b) =
      decide (op &&& mo = vo ∧ n &&& mn = vn ∧ b &&& mb = vb) := by
  simp only [OpcodeRow.hits, wordOf_and, BEq.beq]
  rw [decide_eq_decide]
  exact wordOf_inj ..

@[simp] theorem rowTick_hits (op n : BitVec 4) (b : Byte) :
    rowTick.hits (wordOf op n b) = decide (op = 0#4 ∧ n = 0#4 ∧ b &&& 0xFC#8 = 0#8) := by
  have h := hits_wordOf "TICK" 0xF#4 0xF#4 0#4 0#4 op n 0xFC#8 0#8 b
  rw [show op &&& 0xF#4 = op from BitVec.and_allOnes, show n &&& 0xF#4 = n from BitVec.and_allOnes] at h
  exact h

theorem fullNibble_hits (name : String) (vo op n : BitVec 4) (b : Byte) :
    OpcodeRow.hits ⟨name, 0xFF00#16, wordOf vo 0#4 0#8⟩ (wordOf op n b) = decide (op = vo ∧ n = 0#4) := by
  have h := hits_wordOf name 0xF#4 0xF#4 vo 0#4 op n 0#8 0#8 b
  rw [show op &&& 0xF#4 = op from BitVec.and_allOnes, show n &&& 0xF#4 = n from BitVec.and_allOnes,
    BitVec.and_zero] at h
  exact h.trans (decide_eq_decide.mpr (by simp))

theorem fullWord_hits (name : String) (vo op n : BitVec 4) (b : Byte) :
    OpcodeRow.hits ⟨name, 0xFFFF#16, wordOf vo 0#4 0#8⟩ (wordOf op n b) =
      decide (op = vo ∧ n = 0#4 ∧ b = 0#8) := by
  have h := hits_wordOf name 0xF#4 0xF#4 vo 0#4 op n 0xFF#8 0#8 b
  rw [show op &&& 0xF#4 = op from BitVec.and_allOnes, show n &&& 0xF#4 = n from BitVec.and_allOnes,
    show b &&& 0xFF#8 = b from BitVec.and_allOnes] at h
  exact h

@[simp] theorem rowHostLed_hits (op n : BitVec 4) (b : Byte) :
    rowHostLed.hits (wordOf op n b) = decide (op = 1#4 ∧ n = 0#4) := fullNibble_hits "HOST_LED" 1#4 op n b

@[simp] theorem rowSetReport_hits (op n : BitVec 4) (b : Byte) :
    rowSetReport.hits (wordOf op n b) = decide (op = 2#4) := by
  have h := hits_wordOf "SET_REPORT" 0xF#4 0#4 2#4 0#4 op n 0#8 0#8 b
  rw [show op &&& 0xF#4 = op from BitVec.and_allOnes, BitVec.and_zero, BitVec.and_zero] at h
  exact h.trans (decide_eq_decide.mpr (by simp))

@[simp] theorem rowGetReport_hits (op n : BitVec 4) (b : Byte) :
    rowGetReport.hits (wordOf op n b) = decide (op = 3#4 ∧ n = 0#4 ∧ b = 0#8) := fullWord_hits "GET_REPORT" 3#4 op n b

@[simp] theorem rowGetIdle_hits (op n : BitVec 4) (b : Byte) :
    rowGetIdle.hits (wordOf op n b) = decide (op = 4#4 ∧ n = 0#4 ∧ b = 0#8) := fullWord_hits "GET_IDLE" 4#4 op n b

@[simp] theorem rowSetIdle_hits (op n : BitVec 4) (b : Byte) :
    rowSetIdle.hits (wordOf op n b) = decide (op = 5#4 ∧ n = 0#4) := fullNibble_hits "SET_IDLE" 5#4 op n b

@[simp] theorem rowCtrlOther_hits (op n : BitVec 4) (b : Byte) :
    rowCtrlOther.hits (wordOf op n b) = decide (op = 6#4 ∧ n = 0#4) := fullNibble_hits "CTRL_OTHER" 6#4 op n b

/-- The decoder, field by field. -/
theorem decode_wordOf (op n : BitVec 4) (b : Byte) :
    decode (wordOf op n b) =
      if op = 0#4 ∧ n = 0#4 ∧ b &&& 0xFC#8 = 0#8 then .ok (.tick (b.getLsbD 1) (b.getLsbD 0))
      else if op = 1#4 ∧ n = 0#4 then .ok (.hostLed b)
      else if op = 2#4 then .ok (.setReport n.toNat b)
      else if op = 3#4 ∧ n = 0#4 ∧ b = 0#8 then .ok .getReport
      else if op = 4#4 ∧ n = 0#4 ∧ b = 0#8 then .ok .getIdle
      else if op = 5#4 ∧ n = 0#4 then .ok (.setIdle b)
      else if op = 6#4 ∧ n = 0#4 then .ok (.ctrlOther b)
      else .error (if 7#4 ≤ op then .reservedOpcode else .reservedBits) := by
  have hr : rdyOf (wordOf op n b) = b.getLsbD 1 := by
    simp only [rdyOf, wordOf, BitVec.getLsbD_append]
    simp
  have hb : btnOf (wordOf op n b) = b.getLsbD 0 := by
    simp only [btnOf, wordOf, BitVec.getLsbD_append]
    simp
  have hl : lenOf (wordOf op n b) = n.toNat := congrArg BitVec.toNat (nibbleOf_wordOf op n b)
  simp only [decode, illegalReason, hr, hb, hl, opOf_wordOf, byteOf_wordOf, rowTick_hits, rowHostLed_hits,
    rowSetReport_hits, rowGetReport_hits, rowGetIdle_hits, rowSetIdle_hits, rowCtrlOther_hits, decide_eq_true_eq]

/-- Every word the encoder writes, from its fields. -/
theorem encode_eq_wordOf (i : Instr) :
    encode i =
      match i with
      | .tick rdy btn => wordOf 0#4 0#4 (BitVec.ofNat 8 (rdy.toNat * 2 + btn.toNat))
      | .hostLed b => wordOf 1#4 0#4 b
      | .setReport len b => wordOf 2#4 (BitVec.ofNat 4 len) b
      | .getReport => wordOf 3#4 0#4 0#8
      | .getIdle => wordOf 4#4 0#4 0#8
      | .setIdle b => wordOf 5#4 0#4 b
      | .ctrlOther req => wordOf 6#4 0#4 req := by
  cases i with
  | tick rdy btn => cases rdy <;> cases btn <;> decide
  | _ => rfl

end Sys2Proof
end

