-- ==== Sys2Proof/Laws/Memory.lean ====
section
/-! SUPPORT. The message ROM: programming gives the canonical form, the canonical form is exactly a programmed ROM, and
what a read of each index answers. -/

namespace Sys2Proof.Machine

theorem Memory.romFrom_ne_nil (k : Nat) (m : List Byte) : Memory.romFrom k m ≠ [] := by
  cases m <;> simp [Memory.romFrom]

@[simp] theorem Memory.romFrom_length (k : Nat) (m : List Byte) :
    (Memory.romFrom k m).length = m.length + 1 := by
  induction m generalizing k with
  | nil => rfl
  | cons b m ih => simp [Memory.romFrom, ih]

/-- Programming a legal message makes the canonical form. -/
theorem Memory.romFrom_wf (k : Nat) (m : List Byte) (h : messageWf m = true) :
    Memory.wfFrom k (Memory.romFrom k m) = true := by
  induction m generalizing k with
  | nil => simp [Memory.romFrom, Memory.wfFrom]
  | cons b m ih =>
    simp only [messageWf, List.all_cons, Bool.and_eq_true] at h
    have tail := ih (k + 1) h.2
    match hr : Memory.romFrom (k + 1) m with
    | [] => exact absurd hr (Memory.romFrom_ne_nil _ _)
    | c :: rest =>
      rw [hr] at tail
      simp [Memory.romFrom, hr, Memory.wfFrom, tail, bne_iff_ne.mp h.1]

theorem Memory.rom_wf (m : List Byte) (h : messageWf m = true) : (Memory.rom m).wf = true :=
  Memory.romFrom_wf 0 m h

/-- The canonical form is nothing else than a programmed ROM. -/
theorem Memory.eq_romFrom_of_wfFrom (k : Nat) (r : Memory) (h : Memory.wfFrom k r = true) :
    ∃ m, messageWf m = true ∧ r = Memory.romFrom k m := by
  induction r generalizing k with
  | nil => simp [Memory.wfFrom] at h
  | cons cell rest ih =>
    obtain ⟨a, b⟩ := cell
    cases rest with
    | nil =>
      simp only [Memory.wfFrom, Bool.and_eq_true, beq_iff_eq] at h
      exact ⟨[], rfl, by simp [Memory.romFrom, h.1, h.2]⟩
    | cons c tail =>
      simp only [Memory.wfFrom, Bool.and_eq_true, beq_iff_eq] at h
      obtain ⟨m, hm, hr⟩ := ih (k + 1) h.2
      refine ⟨b :: m, ?_, by rw [hr]; simp [Memory.romFrom, h.1.1]⟩
      simpa [messageWf] using ⟨by simpa using h.1.2, by simpa [messageWf] using hm⟩

theorem Memory.eq_rom_of_wf (r : Memory) (h : r.wf = true) : ∃ m, messageWf m = true ∧ r = Memory.rom m :=
  Memory.eq_romFrom_of_wfFrom 0 r h

@[simp] theorem Memory.len_rom (m : List Byte) : (Memory.rom m).len = m.length := by
  simp [Memory.len, Memory.rom]

/-- `MSG[i] = m[i]` below the terminator, 0x00 at it, and nothing beyond it. -/
theorem Memory.read_romFrom (k i : Nat) (m : List Byte) :
    (Memory.romFrom k m).read (k + i) = (m ++ [0x00#8])[i]? := by
  induction m generalizing k i with
  | nil =>
    cases i with
    | zero => simp [Memory.romFrom, Memory.read]
    | succ i => simp [Memory.romFrom, Memory.read, Memory.unlisted]
  | cons b m ih =>
    cases i with
    | zero => simp [Memory.romFrom, Memory.read]
    | succ i =>
      have h := ih (k + 1) i
      rw [show k + 1 + i = k + (i + 1) by omega] at h
      have hne : ¬ k = k + (i + 1) := by omega
      simpa [Memory.romFrom, Memory.read, hne] using h

theorem Memory.read_rom (i : Nat) (m : List Byte) : (Memory.rom m).read i = (m ++ [0x00#8])[i]? := by
  simpa [Memory.rom] using Memory.read_romFrom 0 i m

/-- In a programmed ROM, exactly the indices 0..L can be read. -/
theorem Memory.read_eq_none_iff (r : Memory) (h : r.wf = true) (i : Nat) : r.read i = none ↔ r.len < i := by
  obtain ⟨m, -, rfl⟩ := Memory.eq_rom_of_wf r h
  simp [Memory.read_rom]

/-- In a programmed ROM, 0x00 stands at the terminator and nowhere else. -/
theorem Memory.read_eq_zero_iff (r : Memory) (h : r.wf = true) (i : Nat) :
    r.read i = some 0x00#8 ↔ i = r.len := by
  obtain ⟨m, hm, rfl⟩ := Memory.eq_rom_of_wf r h
  rw [Memory.read_rom, Memory.len_rom]
  rcases Nat.lt_trichotomy i m.length with hlt | rfl | hgt
  · rw [List.getElem?_append_left hlt, List.getElem?_eq_getElem hlt]
    have hb : m[i] ≠ 0x00#8 := by
      have := List.all_eq_true.mp hm _ (List.getElem_mem hlt)
      simpa using this
    constructor
    · intro hz; exact absurd (by simpa using hz) hb
    · intro heq; omega
  · simp
  · constructor
    · intro hz; simp [List.getElem?_eq_none (show (m ++ [0x00#8]).length ≤ i by simp; omega)] at hz
    · intro heq; omega

/-- Below the terminator there is a character. -/
theorem Memory.read_lt (r : Memory) (h : r.wf = true) (i : Nat) (hi : i < r.len) :
    ∃ c, r.read i = some c ∧ c ≠ 0x00#8 := by
  match hr : r.read i with
  | none => exact absurd ((Memory.read_eq_none_iff r h i).mp hr) (by omega)
  | some c =>
    refine ⟨c, rfl, fun hc => ?_⟩
    have := (Memory.read_eq_zero_iff r h i).mp (by rw [hr, hc])
    omega

end Sys2Proof.Machine
end

