-- ==== Sys2Proof/Laws/State.lean ====
section
/-! SUPPORT. What each update of the state does to each field: one lemma per field per update. -/

namespace Sys2Proof.Machine

variable (s : State)

/-! ## quiet -/

@[simp] theorem State.quiet_rptMod : s.quiet.rptMod = s.rptMod := rfl
@[simp] theorem State.quiet_rptKey : s.quiet.rptKey = s.rptKey := rfl
@[simp] theorem State.quiet_ledState : s.quiet.ledState = s.ledState := rfl
@[simp] theorem State.quiet_capsOn : s.quiet.capsOn = s.capsOn := rfl
@[simp] theorem State.quiet_toggleCnt : s.quiet.toggleCnt = s.toggleCnt := rfl
@[simp] theorem State.quiet_seq : s.quiet.seq = s.seq := rfl
@[simp] theorem State.quiet_cursor : s.quiet.cursor = s.cursor := rfl
@[simp] theorem State.quiet_curChar : s.quiet.curChar = s.curChar := rfl
@[simp] theorem State.quiet_idleRate : s.quiet.idleRate = s.idleRate := rfl
@[simp] theorem State.quiet_halted : s.quiet.halted = s.halted := rfl
@[simp] theorem State.quiet_msg : s.quiet.msg = s.msg := rfl
@[simp] theorem State.quiet_build : s.quiet.build = s.build := rfl
@[simp] theorem State.quiet_inEmit : s.quiet.inEmit = none := rfl
@[simp] theorem State.quiet_wdtService : s.quiet.wdtService = false := rfl
@[simp] theorem State.quiet_ctrlResp : s.quiet.ctrlResp = none := rfl
@[simp] theorem State.quiet_inputs : s.quiet.inputs = s.inputs := rfl
@[simp] theorem State.quiet_trace : s.quiet.trace = s.trace := rfl

/-! ## service -/

@[simp] theorem State.service_rptMod : s.service.rptMod = s.rptMod := rfl
@[simp] theorem State.service_rptKey : s.service.rptKey = s.rptKey := rfl
@[simp] theorem State.service_ledState : s.service.ledState = s.ledState := rfl
@[simp] theorem State.service_capsOn : s.service.capsOn = s.capsOn := rfl
@[simp] theorem State.service_toggleCnt : s.service.toggleCnt = s.toggleCnt := rfl
@[simp] theorem State.service_seq : s.service.seq = s.seq := rfl
@[simp] theorem State.service_cursor : s.service.cursor = s.cursor := rfl
@[simp] theorem State.service_curChar : s.service.curChar = s.curChar := rfl
@[simp] theorem State.service_idleRate : s.service.idleRate = s.idleRate := rfl
@[simp] theorem State.service_halted : s.service.halted = s.halted := rfl
@[simp] theorem State.service_msg : s.service.msg = s.msg := rfl
@[simp] theorem State.service_build : s.service.build = s.build := rfl
@[simp] theorem State.service_inEmit : s.service.inEmit = s.inEmit := rfl
@[simp] theorem State.service_wdtService : s.service.wdtService = true := rfl
@[simp] theorem State.service_ctrlResp : s.service.ctrlResp = s.ctrlResp := rfl
@[simp] theorem State.service_inputs : s.service.inputs = s.inputs := rfl
@[simp] theorem State.service_trace : s.service.trace = s.trace := rfl

/-! ## respond -/

@[simp] theorem State.respond_rptMod (r : List Byte) : (s.respond r).rptMod = s.rptMod := rfl
@[simp] theorem State.respond_rptKey (r : List Byte) : (s.respond r).rptKey = s.rptKey := rfl
@[simp] theorem State.respond_ledState (r : List Byte) : (s.respond r).ledState = s.ledState := rfl
@[simp] theorem State.respond_capsOn (r : List Byte) : (s.respond r).capsOn = s.capsOn := rfl
@[simp] theorem State.respond_toggleCnt (r : List Byte) : (s.respond r).toggleCnt = s.toggleCnt := rfl
@[simp] theorem State.respond_seq (r : List Byte) : (s.respond r).seq = s.seq := rfl
@[simp] theorem State.respond_cursor (r : List Byte) : (s.respond r).cursor = s.cursor := rfl
@[simp] theorem State.respond_curChar (r : List Byte) : (s.respond r).curChar = s.curChar := rfl
@[simp] theorem State.respond_idleRate (r : List Byte) : (s.respond r).idleRate = s.idleRate := rfl
@[simp] theorem State.respond_halted (r : List Byte) : (s.respond r).halted = s.halted := rfl
@[simp] theorem State.respond_msg (r : List Byte) : (s.respond r).msg = s.msg := rfl
@[simp] theorem State.respond_build (r : List Byte) : (s.respond r).build = s.build := rfl
@[simp] theorem State.respond_inEmit (r : List Byte) : (s.respond r).inEmit = s.inEmit := rfl
@[simp] theorem State.respond_wdtService (r : List Byte) : (s.respond r).wdtService = s.wdtService := rfl
@[simp] theorem State.respond_ctrlResp (r : List Byte) : (s.respond r).ctrlResp = some r := rfl
@[simp] theorem State.respond_inputs (r : List Byte) : (s.respond r).inputs = s.inputs := rfl
@[simp] theorem State.respond_trace (r : List Byte) : (s.respond r).trace = s.trace := rfl

/-! ## setKey -/

@[simp] theorem State.setKey_rptMod (k m : Byte) : (s.setKey k m).rptMod = m := rfl
@[simp] theorem State.setKey_rptKey (k m : Byte) : (s.setKey k m).rptKey = k :: List.replicate (s.build.nKeys.toNat - 1) 0x00#8 := rfl
@[simp] theorem State.setKey_ledState (k m : Byte) : (s.setKey k m).ledState = s.ledState := rfl
@[simp] theorem State.setKey_capsOn (k m : Byte) : (s.setKey k m).capsOn = s.capsOn := rfl
@[simp] theorem State.setKey_toggleCnt (k m : Byte) : (s.setKey k m).toggleCnt = s.toggleCnt := rfl
@[simp] theorem State.setKey_seq (k m : Byte) : (s.setKey k m).seq = s.seq := rfl
@[simp] theorem State.setKey_cursor (k m : Byte) : (s.setKey k m).cursor = s.cursor := rfl
@[simp] theorem State.setKey_curChar (k m : Byte) : (s.setKey k m).curChar = s.curChar := rfl
@[simp] theorem State.setKey_idleRate (k m : Byte) : (s.setKey k m).idleRate = s.idleRate := rfl
@[simp] theorem State.setKey_halted (k m : Byte) : (s.setKey k m).halted = s.halted := rfl
@[simp] theorem State.setKey_msg (k m : Byte) : (s.setKey k m).msg = s.msg := rfl
@[simp] theorem State.setKey_build (k m : Byte) : (s.setKey k m).build = s.build := rfl
@[simp] theorem State.setKey_inEmit (k m : Byte) : (s.setKey k m).inEmit = s.inEmit := rfl
@[simp] theorem State.setKey_wdtService (k m : Byte) : (s.setKey k m).wdtService = s.wdtService := rfl
@[simp] theorem State.setKey_ctrlResp (k m : Byte) : (s.setKey k m).ctrlResp = s.ctrlResp := rfl
@[simp] theorem State.setKey_inputs (k m : Byte) : (s.setKey k m).inputs = s.inputs := rfl
@[simp] theorem State.setKey_trace (k m : Byte) : (s.setKey k m).trace = s.trace := rfl

/-! ## emit -/

@[simp] theorem State.emit_rptMod : s.emit.rptMod = s.rptMod := rfl
@[simp] theorem State.emit_rptKey : s.emit.rptKey = s.rptKey := rfl
@[simp] theorem State.emit_ledState : s.emit.ledState = s.ledState := rfl
@[simp] theorem State.emit_capsOn : s.emit.capsOn = s.capsOn := rfl
@[simp] theorem State.emit_toggleCnt : s.emit.toggleCnt = s.toggleCnt := rfl
@[simp] theorem State.emit_seq : s.emit.seq = s.seq := rfl
@[simp] theorem State.emit_cursor : s.emit.cursor = s.cursor := rfl
@[simp] theorem State.emit_curChar : s.emit.curChar = s.curChar := rfl
@[simp] theorem State.emit_idleRate : s.emit.idleRate = s.idleRate := rfl
@[simp] theorem State.emit_halted : s.emit.halted = s.halted := rfl
@[simp] theorem State.emit_msg : s.emit.msg = s.msg := rfl
@[simp] theorem State.emit_build : s.emit.build = s.build := rfl
@[simp] theorem State.emit_inEmit : s.emit.inEmit = some s.readRpt := rfl
@[simp] theorem State.emit_wdtService : s.emit.wdtService = s.wdtService := rfl
@[simp] theorem State.emit_ctrlResp : s.emit.ctrlResp = s.ctrlResp := rfl
@[simp] theorem State.emit_inputs : s.emit.inputs = s.inputs := rfl
@[simp] theorem State.emit_trace : s.emit.trace = s.trace := rfl

/-! ## raiseSafetyTrip -/

@[simp] theorem State.raiseSafetyTrip_rptMod : s.raiseSafetyTrip.rptMod = s.rptMod := rfl
@[simp] theorem State.raiseSafetyTrip_rptKey : s.raiseSafetyTrip.rptKey = s.rptKey := rfl
@[simp] theorem State.raiseSafetyTrip_ledState : s.raiseSafetyTrip.ledState = s.ledState := rfl
@[simp] theorem State.raiseSafetyTrip_capsOn : s.raiseSafetyTrip.capsOn = s.capsOn := rfl
@[simp] theorem State.raiseSafetyTrip_toggleCnt : s.raiseSafetyTrip.toggleCnt = s.toggleCnt := rfl
@[simp] theorem State.raiseSafetyTrip_seq : s.raiseSafetyTrip.seq = s.seq := rfl
@[simp] theorem State.raiseSafetyTrip_cursor : s.raiseSafetyTrip.cursor = s.cursor := rfl
@[simp] theorem State.raiseSafetyTrip_curChar : s.raiseSafetyTrip.curChar = s.curChar := rfl
@[simp] theorem State.raiseSafetyTrip_idleRate : s.raiseSafetyTrip.idleRate = s.idleRate := rfl
@[simp] theorem State.raiseSafetyTrip_halted : s.raiseSafetyTrip.halted = true := rfl
@[simp] theorem State.raiseSafetyTrip_msg : s.raiseSafetyTrip.msg = s.msg := rfl
@[simp] theorem State.raiseSafetyTrip_build : s.raiseSafetyTrip.build = s.build := rfl
@[simp] theorem State.raiseSafetyTrip_inEmit : s.raiseSafetyTrip.inEmit = s.inEmit := rfl
@[simp] theorem State.raiseSafetyTrip_wdtService : s.raiseSafetyTrip.wdtService = s.wdtService := rfl
@[simp] theorem State.raiseSafetyTrip_ctrlResp : s.raiseSafetyTrip.ctrlResp = s.ctrlResp := rfl
@[simp] theorem State.raiseSafetyTrip_inputs : s.raiseSafetyTrip.inputs = s.inputs := rfl
@[simp] theorem State.raiseSafetyTrip_trace : s.raiseSafetyTrip.trace = s.trace := rfl

/-! ## applyReset -/

@[simp] theorem State.applyReset_rptMod : s.applyReset.rptMod = 0x00#8 := rfl
@[simp] theorem State.applyReset_rptKey : s.applyReset.rptKey = List.replicate s.build.nKeys.toNat 0x00#8 := rfl
@[simp] theorem State.applyReset_ledState : s.applyReset.ledState = Config.ledSentinel := rfl
@[simp] theorem State.applyReset_capsOn : s.applyReset.capsOn = false := rfl
@[simp] theorem State.applyReset_toggleCnt : s.applyReset.toggleCnt = 0x00#8 := rfl
@[simp] theorem State.applyReset_seq : s.applyReset.seq = .idle := rfl
@[simp] theorem State.applyReset_cursor : s.applyReset.cursor = 0 := rfl
@[simp] theorem State.applyReset_curChar : s.applyReset.curChar = 0x00#8 := rfl
@[simp] theorem State.applyReset_idleRate : s.applyReset.idleRate = s.build.idleRateReset := rfl
@[simp] theorem State.applyReset_halted : s.applyReset.halted = false := rfl
@[simp] theorem State.applyReset_msg : s.applyReset.msg = s.msg := rfl
@[simp] theorem State.applyReset_build : s.applyReset.build = s.build := rfl
@[simp] theorem State.applyReset_inEmit : s.applyReset.inEmit = none := rfl
@[simp] theorem State.applyReset_wdtService : s.applyReset.wdtService = false := rfl
@[simp] theorem State.applyReset_ctrlResp : s.applyReset.ctrlResp = none := rfl
@[simp] theorem State.applyReset_inputs : s.applyReset.inputs = s.inputs := rfl
@[simp] theorem State.applyReset_trace : s.applyReset.trace = s.trace := rfl

/-! ## record -/

@[simp] theorem State.record_rptMod : s.record.rptMod = s.rptMod := rfl
@[simp] theorem State.record_rptKey : s.record.rptKey = s.rptKey := rfl
@[simp] theorem State.record_ledState : s.record.ledState = s.ledState := rfl
@[simp] theorem State.record_capsOn : s.record.capsOn = s.capsOn := rfl
@[simp] theorem State.record_toggleCnt : s.record.toggleCnt = s.toggleCnt := rfl
@[simp] theorem State.record_seq : s.record.seq = s.seq := rfl
@[simp] theorem State.record_cursor : s.record.cursor = s.cursor := rfl
@[simp] theorem State.record_curChar : s.record.curChar = s.curChar := rfl
@[simp] theorem State.record_idleRate : s.record.idleRate = s.idleRate := rfl
@[simp] theorem State.record_halted : s.record.halted = s.halted := rfl
@[simp] theorem State.record_msg : s.record.msg = s.msg := rfl
@[simp] theorem State.record_build : s.record.build = s.build := rfl
@[simp] theorem State.record_inEmit : s.record.inEmit = s.inEmit := rfl
@[simp] theorem State.record_wdtService : s.record.wdtService = s.wdtService := rfl
@[simp] theorem State.record_ctrlResp : s.record.ctrlResp = s.ctrlResp := rfl
@[simp] theorem State.record_inputs : s.record.inputs = s.inputs := rfl
@[simp] theorem State.record_trace : s.record.trace = s.trace ++ [s.outputs] := rfl

/-! ## endOfMessage -/

@[simp] theorem State.endOfMessage_rptMod : s.endOfMessage.rptMod = s.rptMod := rfl
@[simp] theorem State.endOfMessage_rptKey : s.endOfMessage.rptKey = s.rptKey := rfl
@[simp] theorem State.endOfMessage_ledState : s.endOfMessage.ledState = s.ledState := rfl
@[simp] theorem State.endOfMessage_capsOn : s.endOfMessage.capsOn = s.capsOn := rfl
@[simp] theorem State.endOfMessage_toggleCnt : s.endOfMessage.toggleCnt = s.toggleCnt := rfl
@[simp] theorem State.endOfMessage_seq : s.endOfMessage.seq = .awaitButtonRelease := rfl
@[simp] theorem State.endOfMessage_cursor : s.endOfMessage.cursor = 0 := rfl
@[simp] theorem State.endOfMessage_curChar : s.endOfMessage.curChar = s.curChar := rfl
@[simp] theorem State.endOfMessage_idleRate : s.endOfMessage.idleRate = s.idleRate := rfl
@[simp] theorem State.endOfMessage_halted : s.endOfMessage.halted = s.halted := rfl
@[simp] theorem State.endOfMessage_msg : s.endOfMessage.msg = s.msg := rfl
@[simp] theorem State.endOfMessage_build : s.endOfMessage.build = s.build := rfl
@[simp] theorem State.endOfMessage_inEmit : s.endOfMessage.inEmit = s.inEmit := rfl
@[simp] theorem State.endOfMessage_wdtService : s.endOfMessage.wdtService = s.wdtService := rfl
@[simp] theorem State.endOfMessage_ctrlResp : s.endOfMessage.ctrlResp = s.ctrlResp := rfl
@[simp] theorem State.endOfMessage_inputs : s.endOfMessage.inputs = s.inputs := rfl
@[simp] theorem State.endOfMessage_trace : s.endOfMessage.trace = s.trace := rfl

/-! ## advance -/

@[simp] theorem State.advance_rptMod : s.advance.rptMod = s.rptMod := rfl
@[simp] theorem State.advance_rptKey : s.advance.rptKey = s.rptKey := rfl
@[simp] theorem State.advance_ledState : s.advance.ledState = s.ledState := rfl
@[simp] theorem State.advance_capsOn : s.advance.capsOn = s.capsOn := rfl
@[simp] theorem State.advance_toggleCnt : s.advance.toggleCnt = s.toggleCnt := rfl
@[simp] theorem State.advance_seq : s.advance.seq = .characterPending := rfl
@[simp] theorem State.advance_cursor : s.advance.cursor = s.cursor + 1 := rfl
@[simp] theorem State.advance_curChar : s.advance.curChar = s.curChar := rfl
@[simp] theorem State.advance_idleRate : s.advance.idleRate = s.idleRate := rfl
@[simp] theorem State.advance_halted : s.advance.halted = s.halted := rfl
@[simp] theorem State.advance_msg : s.advance.msg = s.msg := rfl
@[simp] theorem State.advance_build : s.advance.build = s.build := rfl
@[simp] theorem State.advance_inEmit : s.advance.inEmit = s.inEmit := rfl
@[simp] theorem State.advance_wdtService : s.advance.wdtService = s.wdtService := rfl
@[simp] theorem State.advance_ctrlResp : s.advance.ctrlResp = s.ctrlResp := rfl
@[simp] theorem State.advance_inputs : s.advance.inputs = s.inputs := rfl
@[simp] theorem State.advance_trace : s.advance.trace = s.trace := rfl

/-! ## take -/

@[simp] theorem State.take_rptMod (is : List Input) : (s.take is).rptMod = s.rptMod := rfl
@[simp] theorem State.take_rptKey (is : List Input) : (s.take is).rptKey = s.rptKey := rfl
@[simp] theorem State.take_ledState (is : List Input) : (s.take is).ledState = s.ledState := rfl
@[simp] theorem State.take_capsOn (is : List Input) : (s.take is).capsOn = s.capsOn := rfl
@[simp] theorem State.take_toggleCnt (is : List Input) : (s.take is).toggleCnt = s.toggleCnt := rfl
@[simp] theorem State.take_seq (is : List Input) : (s.take is).seq = s.seq := rfl
@[simp] theorem State.take_cursor (is : List Input) : (s.take is).cursor = s.cursor := rfl
@[simp] theorem State.take_curChar (is : List Input) : (s.take is).curChar = s.curChar := rfl
@[simp] theorem State.take_idleRate (is : List Input) : (s.take is).idleRate = s.idleRate := rfl
@[simp] theorem State.take_halted (is : List Input) : (s.take is).halted = s.halted := rfl
@[simp] theorem State.take_msg (is : List Input) : (s.take is).msg = s.msg := rfl
@[simp] theorem State.take_build (is : List Input) : (s.take is).build = s.build := rfl
@[simp] theorem State.take_inEmit (is : List Input) : (s.take is).inEmit = s.inEmit := rfl
@[simp] theorem State.take_wdtService (is : List Input) : (s.take is).wdtService = s.wdtService := rfl
@[simp] theorem State.take_ctrlResp (is : List Input) : (s.take is).ctrlResp = s.ctrlResp := rfl
@[simp] theorem State.take_inputs (is : List Input) : (s.take is).inputs = is := rfl
@[simp] theorem State.take_trace (is : List Input) : (s.take is).trace = s.trace := rfl

/-! ## present -/

@[simp] theorem State.present_rptMod (i : Input) : (s.present i).rptMod = s.rptMod := rfl
@[simp] theorem State.present_rptKey (i : Input) : (s.present i).rptKey = s.rptKey := rfl
@[simp] theorem State.present_ledState (i : Input) : (s.present i).ledState = s.ledState := rfl
@[simp] theorem State.present_capsOn (i : Input) : (s.present i).capsOn = s.capsOn := rfl
@[simp] theorem State.present_toggleCnt (i : Input) : (s.present i).toggleCnt = s.toggleCnt := rfl
@[simp] theorem State.present_seq (i : Input) : (s.present i).seq = s.seq := rfl
@[simp] theorem State.present_cursor (i : Input) : (s.present i).cursor = s.cursor := rfl
@[simp] theorem State.present_curChar (i : Input) : (s.present i).curChar = s.curChar := rfl
@[simp] theorem State.present_idleRate (i : Input) : (s.present i).idleRate = s.idleRate := rfl
@[simp] theorem State.present_halted (i : Input) : (s.present i).halted = s.halted := rfl
@[simp] theorem State.present_msg (i : Input) : (s.present i).msg = s.msg := rfl
@[simp] theorem State.present_build (i : Input) : (s.present i).build = s.build := rfl
@[simp] theorem State.present_inEmit (i : Input) : (s.present i).inEmit = s.inEmit := rfl
@[simp] theorem State.present_wdtService (i : Input) : (s.present i).wdtService = s.wdtService := rfl
@[simp] theorem State.present_ctrlResp (i : Input) : (s.present i).ctrlResp = s.ctrlResp := rfl
@[simp] theorem State.present_inputs (i : Input) : (s.present i).inputs = i :: s.inputs := rfl
@[simp] theorem State.present_trace (i : Input) : (s.present i).trace = s.trace := rfl

end Sys2Proof.Machine
end

