-- ==== Sys2Proof/Laws/Ops.lean ====
section
/-! SUPPORT. One lemma per shared operation: everything it can do. -/

namespace Sys2Proof.Machine

/-! ## The gate, the MSG read, finishing -/

theorem unlessHalted_of_halted {s : State} (h : s.halted = true) (body : State → Result) :
    unlessHalted s body = .next s.quiet := by
  simp [unlessHalted, h]

theorem unlessHalted_of_running {s : State} (h : s.halted = false) (body : State → Result) :
    unlessHalted s body = body s.quiet := by
  simp [unlessHalted, h]

theorem withMsg_of_read {s : State} {i : Nat} {c : Byte} (h : s.msg.read i = some c) (rest : Byte → Result) :
    withMsg s i rest = rest c := by
  simp [withMsg, h]

theorem withMsg_of_beyond {s : State} {i : Nat} (h : s.msg.read i = none) (rest : Byte → Result) :
    withMsg s i rest = .fault (.msgOutOfRange i) := by
  simp [withMsg, h]

/-- A MSG read that goes on read a byte. -/
theorem withMsg_next {s t : State} {i : Nat} {rest : Byte → Result} (h : withMsg s i rest = .next t) :
    ∃ c, s.msg.read i = some c ∧ rest c = .next t := by
  match hr : s.msg.read i with
  | some c => exact ⟨c, rfl, by rwa [withMsg_of_read hr] at h⟩
  | none => rw [withMsg_of_beyond hr] at h; cases h

theorem finish_next {r : Result} {u : State} (h : finish r = .next u) : ∃ t, r = .next t ∧ u = t.record := by
  cases r with
  | next t => exact ⟨t, rfl, by cases h; rfl⟩
  | fault f => cases h
  | refused x => cases h

/-! ## The report -/

theorem State.readRpt_of_holds {s : State} {p : KeyPair} (h : s.holds p) : s.readRpt = report s.build p := by
  simp [State.readRpt, State.rptRsv, report, h.1, h.2]

theorem State.setKey_holds (s : State) (p : KeyPair) : (s.setKey p.key p.mod).holds p := ⟨rfl, rfl⟩

theorem report_neutral (b : Build) : report b KeyPair.neutral = zeroReport b := by
  cases b with
  | mk n r => cases n <;> rfl

theorem report_length (b : Build) (p : KeyPair) : (report b p).length = b.rlen := by
  cases b with
  | mk n r => cases n <;> rfl

/-! ## The Mapper -/

/-- R122: what `map` can answer. -/
theorem mapKey_zero_mod (c : Byte) (caps : Bool) (h : (mapKey c caps).key = 0x00#8) :
    (mapKey c caps).mod = 0x00#8 := by
  revert h; revert caps; revert c; decide +revert

/-! ## The LED controller -/

@[simp] theorem State.onHostReport_duplicate (s : State) : s.onHostReport s.ledState = s := by
  simp [State.onHostReport]

theorem State.onHostReport_new {s : State} {b : Byte} (h : b ≠ s.ledState) :
    s.onHostReport b =
      { s with
        ledState := b
        toggleCnt := if capsBit b && !s.capsOn then satInc8 s.toggleCnt else s.toggleCnt
        capsOn := capsBit b } := by
  simp [State.onHostReport, h]

/-- Everything `onHostReport` can do to a state: it writes the three LED registers and nothing else. -/
theorem State.onHostReport_frame (s : State) (b : Byte) :
    ∃ led cnt caps, s.onHostReport b = { s with ledState := led, toggleCnt := cnt, capsOn := caps } := by
  by_cases h : b = s.ledState
  · exact ⟨s.ledState, s.toggleCnt, s.capsOn, by simp [h]⟩
  · exact ⟨_, _, _, State.onHostReport_new h⟩

/-- `sat_inc8` on numbers. -/
theorem satInc8_toNat (v : Byte) : (satInc8 v).toNat = min 255 (v.toNat + 1) := by
  revert v; decide

/-- TRIP on numbers. -/
theorem State.trip_iff (s : State) : s.trip = true ↔ 5 ≤ s.toggleCnt.toNat := by
  simp [State.trip, Config.tripThreshold, BitVec.le_def]

/-! ## The sequencer -/

/-- Everything a sequencer step that goes on can do. -/
theorem State.stepSequencer_cases {s t : State} {btn : Bool} (h : s.stepSequencer btn = .next t) :
    (s.seq = .idle ∧ btn = false ∧ t = { s with toggleCnt := 0x00#8, seq := .characterPending }) ∨
    (s.seq = .idle ∧ btn = true ∧ t = s) ∨
    (s.seq = .characterPending ∧ ∃ c, s.msg.read s.cursor = some c ∧
      t = { ({ s with curChar := c }.setKey (mapKey c s.capsOn).key (mapKey c s.capsOn).mod).emit with
            seq := .releasePending }) ∨
    (s.seq = .releasePending ∧
      (∃ c, s.msg.read s.cursor = some c ∧ (c = 0x00#8 ∨ s.msg.read (s.cursor + 1) = some 0x00#8)) ∧
      t = s.release.emit.endOfMessage) ∨
    (s.seq = .releasePending ∧
      (∃ c d, s.msg.read s.cursor = some c ∧ c ≠ 0x00#8 ∧ s.msg.read (s.cursor + 1) = some d ∧ d ≠ 0x00#8) ∧
      t = s.release.emit.advance) ∨
    (s.seq = .awaitButtonRelease ∧ btn = true ∧ t = { s with seq := .idle }) ∨
    (s.seq = .awaitButtonRelease ∧ btn = false ∧ t = s) := by
  unfold State.stepSequencer at h
  split at h
  case h_1 hs =>
    cases btn <;> simp [State.stepIdle, pressed] at h <;> simp [hs, h.symm]
  case h_2 hs =>
    obtain ⟨c, hc, ht⟩ := withMsg_next h
    cases ht
    exact .inr (.inr (.inl ⟨hs, c, hc, rfl⟩))
  case h_3 hs =>
    obtain ⟨c, hc, ht⟩ := withMsg_next h
    split at ht
    · cases ht
      exact .inr (.inr (.inr (.inl ⟨hs, ⟨c, hc, .inl (by simp_all)⟩, rfl⟩)))
    · rename_i hne
      obtain ⟨d, hd, hu⟩ := withMsg_next ht
      split at hu
      · cases hu
        exact .inr (.inr (.inr (.inl ⟨hs, ⟨c, hc, .inr (by simp_all)⟩, rfl⟩)))
      · rename_i hdne
        cases hu
        exact .inr (.inr (.inr (.inr (.inl ⟨hs, ⟨c, d, hc, hne, hd, hdne⟩, rfl⟩))))
  case h_4 hs =>
    cases btn <;> simp [State.stepAwait, pressed] at h <;> simp [hs, h.symm]

/-- Everything a TICK that goes on can do. -/
theorem execTick_cases {s t : State} {rdy btn : Bool} (h : execTick rdy btn s = .next t) :
    (s.halted = true ∧ t = s.quiet) ∨
    (s.halted = false ∧ s.trip = true ∧ t = s.quiet.raiseSafetyTrip) ∨
    (s.halted = false ∧ s.trip = false ∧ rdy = false ∧ t = s.quiet.service) ∨
    (s.halted = false ∧ s.trip = false ∧ rdy = true ∧ s.quiet.service.stepSequencer btn = .next t) := by
  have hq : s.quiet.trip = s.trip := rfl
  cases hh : s.halted with
  | true =>
    rw [execTick, unlessHalted_of_halted hh] at h
    cases h; exact .inl ⟨rfl, rfl⟩
  | false =>
    rw [execTick, unlessHalted_of_running hh] at h
    cases ht : s.trip with
    | true => simp [hq, ht] at h; exact .inr (.inl ⟨rfl, rfl, h.symm⟩)
    | false =>
      cases rdy with
      | false => simp [hq, ht] at h; exact .inr (.inr (.inl ⟨rfl, rfl, rfl, h.symm⟩))
      | true => simp [hq, ht] at h; exact .inr (.inr (.inr ⟨rfl, rfl, rfl, h⟩))

end Sys2Proof.Machine
end

