-- ==== Sys2Proof/Laws/Exec.lean ====
section
/-! SUPPORT. What each command answers, said once: halted, and running. -/

namespace Sys2Proof.Machine

@[simp] theorem SameBlock.refl (s : State) : SameBlock s s := ⟨rfl, rfl, rfl, rfl, rfl, rfl, rfl, rfl, rfl, rfl, rfl, rfl⟩

/-- Deasserting the outputs leaves the block as it is. -/
theorem SameBlock.quiet (s : State) : SameBlock s s.quiet := ⟨rfl, rfl, rfl, rfl, rfl, rfl, rfl, rfl, rfl, rfl, rfl, rfl⟩

/-- `sat_inc8` as one number. -/
theorem satInc8_eq (v : Byte) : satInc8 v = BitVec.ofNat 8 (min 255 (v.toNat + 1)) := by
  revert v; decide

/-- A halted block answers every command with its outputs deasserted and nothing else (60_exceptions.md R225). -/
theorem exec_of_halted {s : State} (h : s.halted = true) (i : Instr) : exec i s = .next s.quiet := by
  cases i with
  | tick rdy btn => rw [exec, execTick, unlessHalted_of_halted h]
  | hostLed b => rw [exec, execHostLed, unlessHalted_of_halted h]
  | setReport len b => rw [exec, execSetReport, unlessHalted_of_halted h]
  | getReport => rw [exec, execGetReport, unlessHalted_of_halted h]
  | getIdle => rw [exec, execGetIdle, unlessHalted_of_halted h]
  | setIdle b => rw [exec, execSetIdle, unlessHalted_of_halted h]
  | ctrlOther req => rw [exec, execCtrlOther, unlessHalted_of_halted h]

variable {s : State} (h : s.halted = false)
include h

theorem exec_hostLed (b : Byte) : exec (.hostLed b) s = .next (s.quiet.onHostReport b) := by
  rw [exec, execHostLed, unlessHalted_of_running h]

theorem exec_setReport_one (b : Byte) :
    exec (.setReport 1 b) s = .next ((s.quiet.onHostReport b).respond []) := by
  rw [exec, execSetReport, unlessHalted_of_running h]
  rfl

/-- A host LED byte does the same by either path, but for the answer (43_led_controller.md R159). -/
theorem exec_ledCommand (d : LedPath × Byte) :
    ∃ resp, exec (ledCommand d) s = .next { s.quiet.onHostReport d.2 with ctrlResp := resp } := by
  match d with
  | (.interruptOut, b) => exact ⟨(s.quiet.onHostReport b).ctrlResp, exec_hostLed h b⟩
  | (.control, b) => exact ⟨some [], exec_setReport_one h b⟩

theorem exec_setReport_other {len : Nat} (hl : len ≠ 1) (b : Byte) :
    exec (.setReport len b) s = .next (s.quiet.respond []) := by
  rw [exec, execSetReport, unlessHalted_of_running h]
  simp [isLedPayload, hl]

theorem exec_getReport : exec .getReport s = .next (s.quiet.respond s.quiet.maskedReport) := by
  rw [exec, execGetReport, unlessHalted_of_running h]

theorem exec_getIdle : exec .getIdle s = .next (s.quiet.respond [s.idleRate]) := by
  rw [exec, execGetIdle, unlessHalted_of_running h]
  rfl

theorem exec_setIdle (b : Byte) : exec (.setIdle b) s = .next ({ s.quiet with idleRate := b }.respond []) := by
  rw [exec, execSetIdle, unlessHalted_of_running h]

theorem exec_ctrlOther (req : Byte) : exec (.ctrlOther req) s = .next (s.quiet.respond []) := by
  rw [exec, execCtrlOther, unlessHalted_of_running h]

theorem exec_tick_trip (ht : s.trip = true) (rdy btn : Bool) :
    exec (.tick rdy btn) s = .next s.quiet.raiseSafetyTrip := by
  rw [exec, execTick, unlessHalted_of_running h]
  have : s.quiet.trip = true := ht
  simp [this]

theorem exec_tick_notReady (ht : s.trip = false) (btn : Bool) :
    exec (.tick false btn) s = .next s.quiet.service := by
  rw [exec, execTick, unlessHalted_of_running h]
  have : s.quiet.trip = false := ht
  simp [this]

theorem exec_tick_ready (ht : s.trip = false) (btn : Bool) :
    exec (.tick true btn) s = s.quiet.service.stepSequencer btn := by
  rw [exec, execTick, unlessHalted_of_running h]
  have : s.quiet.trip = false := ht
  simp [this]

omit h

/-- No command touches the ROM, the build parameters, the schedule or the trace. -/
theorem exec_frame {i : Instr} {t : State} (he : exec i s = .next t) :
    t.msg = s.msg ∧ t.build = s.build ∧ t.inputs = s.inputs ∧ t.trace = s.trace := by
  cases hh : s.halted with
  | true => rw [exec_of_halted hh] at he; cases he; simp
  | false =>
    have led : ∀ b, (s.quiet.onHostReport b).msg = s.msg ∧ (s.quiet.onHostReport b).build = s.build ∧
        (s.quiet.onHostReport b).inputs = s.inputs ∧ (s.quiet.onHostReport b).trace = s.trace := by
      intro b
      obtain ⟨x, y, z, e⟩ := State.onHostReport_frame s.quiet b
      simp [e]
    cases i with
    | tick rdy btn =>
      rcases execTick_cases he with ⟨-, rfl⟩ | ⟨-, -, rfl⟩ | ⟨-, -, -, rfl⟩ | ⟨-, -, -, hs⟩
      · simp
      · simp
      · simp
      · rcases State.stepSequencer_cases hs with ⟨-, -, rfl⟩ | ⟨-, -, rfl⟩ | ⟨-, c, -, rfl⟩ | ⟨-, -, rfl⟩ |
          ⟨-, -, rfl⟩ | ⟨-, -, rfl⟩ | ⟨-, -, rfl⟩ <;> simp [State.release]
    | hostLed b => rw [exec_hostLed hh] at he; cases he; exact led b
    | setReport len b =>
      by_cases hl : len = 1
      · subst hl; rw [exec_setReport_one hh] at he; cases he; exact led b
      · rw [exec_setReport_other hh hl] at he; cases he; simp
    | getReport => rw [exec_getReport hh] at he; cases he; simp
    | getIdle => rw [exec_getIdle hh] at he; cases he; simp
    | setIdle b => rw [exec_setIdle hh] at he; cases he; simp
    | ctrlOther req => rw [exec_ctrlOther hh] at he; cases he; simp

/-- A command is a TICK or it is none. -/
theorem Instr.tick_or_other (i : Instr) : (∃ rdy btn, i = .tick rdy btn) ∨ ∀ rdy btn, i ≠ .tick rdy btn := by
  cases i <;> simp

/-- The longest answer there is, a whole report, has RLEN bytes. -/
theorem State.maskedReport_length (hr : ReportInv s) : s.maskedReport.length = s.build.rlen := by
  obtain ⟨k, hk, -⟩ := hr
  rw [State.maskedReport, List.length_set, List.length_set, State.readRpt, hk]
  rcases s.build with ⟨n, idle⟩
  cases n <;> rfl

/-- Everything a command other than TICK can do: it rewrites the LED registers (only HOST_LED and a SET_REPORT of length
1 do) and IDLE_RATE (only SET_IDLE does), and answers, unless it is HOST_LED or the block is halted. -/
theorem exec_other_cases {i : Instr} {t : State} (he : exec i s = .next t) (hi : ∀ rdy btn, i ≠ .tick rdy btn) :
    ∃ led cnt caps idle resp,
      t = { s with
        ledState := led, toggleCnt := cnt, capsOn := caps, idleRate := idle
        inEmit := none, wdtService := false, ctrlResp := resp } ∧
      ((∀ b, i ≠ .hostLed b) → (∀ b, i ≠ .setReport 1 b) →
        led = s.ledState ∧ cnt = s.toggleCnt ∧ caps = s.capsOn) ∧
      ((∀ b, i ≠ .setIdle b) → idle = s.idleRate) ∧
      (resp ≠ none ↔ s.halted = false ∧ ∀ b, i ≠ .hostLed b) ∧
      (ReportInv s → ∀ d, resp = some d → d.length ≤ s.build.rlen) ∧
      (s.halted = true → led = s.ledState ∧ cnt = s.toggleCnt ∧ caps = s.capsOn ∧ idle = s.idleRate) ∧
      (∀ b, i = .setIdle b → s.halted = false → idle = b) := by
  rcases Bool.eq_false_or_eq_true s.halted with hh | hh
  · rw [exec_of_halted hh] at he
    cases he
    exact ⟨s.ledState, s.toggleCnt, s.capsOn, s.idleRate, none, rfl, by simp [hh]⟩
  · cases i with
    | tick rdy btn => exact absurd rfl (hi rdy btn)
    | hostLed b =>
      rw [exec_hostLed hh] at he
      cases he
      obtain ⟨x, y, z, e⟩ := State.onHostReport_frame s.quiet b
      exact ⟨x, y, z, s.idleRate, none, by rw [e]; rfl, by simp [hh]⟩
    | setReport len b =>
      by_cases hl : len = 1
      · subst hl
        rw [exec_setReport_one hh] at he
        cases he
        obtain ⟨x, y, z, e⟩ := State.onHostReport_frame s.quiet b
        exact ⟨x, y, z, s.idleRate, some [], by rw [e]; rfl, by simp [hh]⟩
      · rw [exec_setReport_other hh hl] at he
        cases he
        exact ⟨s.ledState, s.toggleCnt, s.capsOn, s.idleRate, some [], rfl, by simp [hh]⟩
    | getReport =>
      rw [exec_getReport hh] at he
      cases he
      refine ⟨s.ledState, s.toggleCnt, s.capsOn, s.idleRate, some s.maskedReport, rfl, by simp, by simp, by simp [hh], ?_,
        by simp [hh], by simp⟩
      intro hr d hd
      cases hd
      exact (State.maskedReport_length hr).le
    | getIdle =>
      rw [exec_getIdle hh] at he
      cases he
      refine ⟨s.ledState, s.toggleCnt, s.capsOn, s.idleRate, some [s.idleRate], rfl, by simp, by simp, by simp [hh], ?_,
        by simp [hh], by simp⟩
      rintro - d hd
      cases hd
      simp [Build.rlen]
      omega
    | setIdle b =>
      rw [exec_setIdle hh] at he
      cases he
      exact ⟨s.ledState, s.toggleCnt, s.capsOn, b, some [], rfl, by simp [hh]⟩
    | ctrlOther req =>
      rw [exec_ctrlOther hh] at he
      cases he
      exact ⟨s.ledState, s.toggleCnt, s.capsOn, s.idleRate, some [], rfl, by simp [hh]⟩

/-- A read of MSG refuses nothing of its own. -/
theorem withMsg_not_refused {j : Nat} {rest : Byte → Result} {r : Refusal} (h : ∀ c, rest c ≠ .refused r) :
    withMsg s j rest ≠ .refused r := by
  unfold withMsg
  split
  · exact h _
  · simp

theorem State.stepSequencer_not_refused (s : State) (btn : Bool) (r : Refusal) :
    s.stepSequencer btn ≠ .refused r := by
  unfold State.stepSequencer
  split
  · simp
  · exact withMsg_not_refused fun c => by simp
  · refine withMsg_not_refused fun c => ?_
    split
    · simp
    · exact withMsg_not_refused fun d => by split <;> simp
  · simp

/-- No command is refused: every word that decodes has a meaning. -/
theorem exec_not_refused (i : Instr) (s : State) (r : Refusal) : exec i s ≠ .refused r := by
  rcases Bool.eq_false_or_eq_true s.halted with hh | hh
  · rw [exec_of_halted hh]
    simp
  · cases i with
    | tick rdy btn =>
      cases ht : s.trip with
      | true => rw [exec_tick_trip hh ht]; simp
      | false =>
        cases rdy with
        | true => rw [exec_tick_ready hh ht]; exact State.stepSequencer_not_refused _ _ _
        | false => rw [exec_tick_notReady hh ht]; simp
    | hostLed b => rw [exec_hostLed hh]; simp
    | setReport len b =>
      by_cases hl : len = 1
      · subst hl; rw [exec_setReport_one hh]; simp
      · rw [exec_setReport_other hh hl]; simp
    | getReport => rw [exec_getReport hh]; simp
    | getIdle => rw [exec_getIdle hh]; simp
    | setIdle b => rw [exec_setIdle hh]; simp
    | ctrlOther req => rw [exec_ctrlOther hh]; simp

end Sys2Proof.Machine
end

