-- ==== Sys2Proof/Laws/PerInstr.lean ====
section
/-! SUPPORT. The family EncodedRow: the word a command is encoded as belongs to its own row of the opcode table. -/

namespace Sys2Proof.Laws.EncodedRow

/-- The encoded word matches the row of the command, whatever the operands. -/
def Statement (i : Instr) : Prop := (rowOf i).hits (encode i) = true

theorem tick (rdy btn : Bool) : Statement (.tick rdy btn) := by
  revert rdy btn; unfold Statement; decide

theorem hostLed (b : Byte) : Statement (.hostLed b) := by
  revert b; unfold Statement; decide

theorem setReport (len : Nat) (b : Byte) : Statement (.setReport len b) := by
  show ((0x2#4 ++ BitVec.ofNat 4 len ++ b : Word) &&& 0xF000#16 == 0x2000#16) = true
  rw [beq_iff_eq]
  ext i hi
  simp only [BitVec.getElem_and, BitVec.getElem_append]
  interval_cases i <;> simp

theorem getReport : Statement .getReport := by
  unfold Statement; decide

theorem getIdle : Statement .getIdle := by
  unfold Statement; decide

theorem setIdle (b : Byte) : Statement (.setIdle b) := by
  revert b; unfold Statement; decide

theorem ctrlOther (req : Byte) : Statement (.ctrlOther req) := by
  revert req; unfold Statement; decide

end Sys2Proof.Laws.EncodedRow
end

