-- ==== Sys2Proof/Laws/Step.lean ====
section
/-! SUPPORT. What a step can do, said once: no input, RESET, or one decoded command. -/

namespace Sys2Proof.Machine

/-- Everything a step that goes on can do. -/
theorem step_cases {s t : State} (h : step s = .next t) :
    (s.inputs = [] ∧ t = s.quiet) ∨
    (∃ inp rest, s.inputs = inp :: rest ∧ inp.reset = true ∧ t = (s.take rest).applyReset.record) ∨
    (∃ inp rest i u, s.inputs = inp :: rest ∧ inp.reset = false ∧ decode inp.cmd = .ok i ∧
      exec i (s.take rest) = .next u ∧ t = u.record) := by
  unfold step at h
  split at h
  case h_1 hs => cases h; exact .inl ⟨hs, rfl⟩
  case h_2 inp rest hs =>
    cases hr : inp.reset with
    | true => simp [hr] at h; exact .inr (.inl ⟨inp, rest, hs, hr, h.symm⟩)
    | false =>
      simp only [hr] at h
      cases hd : decode inp.cmd with
      | error e => simp [hd] at h
      | ok i =>
        simp only [hd] at h
        obtain ⟨u, hu, ht⟩ := finish_next h
        exact .inr (.inr ⟨inp, rest, i, u, hs, hr, hd, hu, ht⟩)

/-- The step of a presented command. -/
theorem step_of_command {s : State} {w : Word} {rest : List Input} {i : Instr}
    (hs : s.inputs = ⟨false, w⟩ :: rest) (hd : decode w = .ok i) :
    step s = finish (exec i (s.take rest)) := by
  simp [step, hs, hd]

theorem step_of_reset {s : State} {w : Word} {rest : List Input} (hs : s.inputs = ⟨true, w⟩ :: rest) :
    step s = .next (s.take rest).applyReset.record := by
  simp [step, hs]

theorem run_succ_of_next {s t : State} {k : Nat} (h : step s = .next t) : run (k + 1) s = run k t := by
  simp [run, h]

/-- Runs are the host's runs of the machine. -/
theorem run_eq_core_run (k : Nat) (s : State) : run k s = Sys2Proof.core.run k s := by
  induction k generalizing s with
  | zero => rfl
  | succ k ih =>
    simp only [run, Host.Core.run]
    rw [show Sys2Proof.core.step s = step s from rfl]
    cases step s with
    | next t => exact ih t
    | fault f => rfl
    | refused r => rfl

/-- Two runs in a row are one. -/
theorem run_add {s t : State} (j k : Nat) (h : run j s = .next t) : run (j + k) s = run k t := by
  induction j generalizing s with
  | zero => cases h; rw [Nat.zero_add]
  | succ j ih =>
    rw [Nat.add_right_comm]
    simp only [run] at h ⊢
    cases hs : step s with
    | next u => simp only [hs] at h ⊢; exact ih h
    | fault f => simp [hs] at h
    | refused r => simp [hs] at h

/-- The reset state of the machine is what RESET makes of any state of the same chip. -/
theorem State.reset_eq_boot : State.reset = State.boot Config.build Config.message [] := rfl

theorem State.applyReset_boot (b : Build) (m : List Byte) (is : List Input) :
    (State.boot b m is).applyReset = State.boot b m is := rfl

theorem messageByte_ne_zero (c : Fin 255) : messageByte c ≠ 0x00#8 := by
  intro h
  have := congrArg BitVec.toNat h
  simp [messageByte] at this
  omega

/-- Whatever message the chip has, it is legal. -/
theorem config_message_wf : messageWf Config.message = true := by
  simp [messageWf, Config.message, messageByte_ne_zero]

theorem State.reset_msg_wf : State.reset.msg.wf = true := Memory.rom_wf _ config_message_wf

end Sys2Proof.Machine
end

