-- ==== Sys2Proof/Tests/Slice0.lean ====
section
/-! SUPPORT. The model's own tests. Expected values are those of 95_test_vectors.md (named in the comments) or are worked
out by hand from the rules. First the checks of terms and words, then the commands, then one witness per statement that
has hypotheses. -/

namespace Sys2Proof.Tests

open Sys2Proof Sys2Proof.Machine

/-! ## Helpers -/

def six : Build := ⟨.six, 0x5A#8⟩
def single : Build := ⟨.one, 0x00#8⟩

/-- The message "ab1". -/
def ab1 : List Byte := [0x61#8, 0x62#8, 0x31#8]

/-- A chip with six slots and the message "ab1", right after RESET. -/
def booted : State := State.boot six ab1 []

/-- The same chip about to type a character. -/
def pending (cursor : Nat) : State := { booted with seq := .characterPending, cursor := cursor }

/-- The same chip holding the key of a character, as a StepChar left it. -/
def holding (cursor : Nat) (c m k : Byte) : State :=
  { booted with
    seq := .releasePending, cursor := cursor, curChar := c, rptMod := m, rptKey := [k, 0x00#8, 0x00#8, 0x00#8, 0x00#8, 0x00#8] }

def awaiting : State := { booted with seq := .awaitButtonRelease }

/-- Caps lock on, a count of 4. -/
def capsOnce : State := { booted with ledState := 0x02#8, capsOn := true, toggleCnt := 0x04#8 }

/-- Caps lock off, a count of 4. -/
def capsOff : State := { booted with ledState := 0x00#8, toggleCnt := 0x04#8 }

/-- A count that trips. -/
def tripping : State := { booted with ledState := 0x02#8, capsOn := true, toggleCnt := 0x05#8 }

/-- P6 after step 12: halted with 'h' held. -/
def stuck : State :=
  { holding 0 0x68#8 0x00#8 0x0B#8 with
    msg := Memory.rom [0x68#8, 0x69#8], halted := true, toggleCnt := 0x05#8, ledState := 0x02#8, capsOn := true }

def emptyPending : State := { State.boot six [] [] with seq := .characterPending }

def emptyHeld : State := { State.boot six [] [] with seq := .releasePending }

def given (s : State) (inputs : List Input) : State := { s with inputs := inputs }

/-- The next state of a result, if there is one. -/
def after : Result → Option State
  | .next t => some t
  | .fault _ => none
  | .refused _ => none

def faultOf : Result → Option Fault
  | .next _ => none
  | .fault f => some f
  | .refused _ => none

def refusalOf : Result → Option Refusal
  | .next _ => none
  | .fault _ => none
  | .refused r => some r

def decoded (w : Word) : Option Instr := decodeTableWord 16 w.toNat

/-! ## Well-formed terms -/

theorem test_wf_setReport_15 : (Instr.setReport 15 0x00#8).wf = true := by decide
theorem test_wf_refuses_setReport_16 : (Instr.setReport 16 0x00#8).wf = false := by decide
theorem test_wf_refuses_inner_terminator : messageWf [0x61#8, 0x00#8, 0x62#8] = false := by decide
theorem test_program_refuses_inner_terminator : Memory.program? [0x61#8, 0x00#8, 0x62#8] = none := by decide
theorem test_slot_counts :
    [0, 1, 2, 3, 4, 5, 6, 7].filterMap SlotCount.ofNat? = [.one, .six] := by decide
theorem test_rom_of_ab1 :
    Memory.rom ab1 = [(0, 0x61#8), (1, 0x62#8), (2, 0x31#8), (3, 0x00#8)] ∧ (Memory.rom ab1).wf = true := by decide
theorem test_rom_of_empty : Memory.rom [] = [(0, 0x00#8)] ∧ (Memory.rom []).wf = true := by decide
theorem test_memory_wf_refuses :
    Memory.wf [] = false ∧ Memory.wf [(0, 0x61#8)] = false ∧ Memory.wf [(1, 0x00#8)] = false ∧
      Memory.wf [(0, 0x00#8), (1, 0x00#8)] = false := by decide

/-! ## Words (V-DEC-1 to V-DEC-11), bit 15 first -/

theorem test_decode_tick :
    [0b0000000000000000#16, 0b0000000000000001#16, 0b0000000000000010#16, 0b0000000000000011#16].map decoded =
      [some (.tick false false), some (.tick false true), some (.tick true false), some (.tick true true)] := by decide
theorem test_decode_hostLed : decoded 0b0001000011111111#16 = some (.hostLed 0xFF#8) := by decide
theorem test_decode_setReport : decoded 0b0010111100000010#16 = some (.setReport 15 0x02#8) := by decide
theorem test_decode_getReport : decoded 0b0011000000000000#16 = some .getReport := by decide
theorem test_decode_getIdle : decoded 0b0100000000000000#16 = some .getIdle := by decide
theorem test_decode_setIdle : decoded 0b0101000010101011#16 = some (.setIdle 0xAB#8) := by decide
theorem test_decode_ctrlOther : decoded 0b0110000011111111#16 = some (.ctrlOther 0xFF#8) := by decide
theorem test_decode_refuses :
    [0x0004#16, 0x0802#16, 0x1100#16, 0x3001#16, 0x4100#16, 0x6F00#16, 0x7000#16, 0x8000#16, 0xFFFF#16].map decoded =
      List.replicate 9 none := by decide
theorem test_step_refuses_illegal_words :
    [0x0004#16, 0x7000#16].map (fun w => refusalOf (step (given booted [⟨false, w⟩]))) =
      [some (.illegalWord .reservedBits), some (.illegalWord .reservedOpcode)] := by decide

/-- The first instruction after the model's reset, whose parameters nothing is known of. -/
theorem test_first_command_runs :
    [0x0000, 0x0002, 0x1002, 0x2102, 0x5000, 0x4000, 0x6003].all
      (fun w => (after (step (State.reset.withFetchWord 16 w))).isSome) = true := by decide
theorem test_first_getReport_runs : ∃ t, step (State.reset.withFetchWord 16 0x3000) = .next t := ⟨_, rfl⟩

/-! ## Scripts (R100, R101) -/

theorem test_assemble :
    assemble ["PRESS  ; a press".toList, "".toList, "LED 0x02".toList, "SETRPT 20, 3".toList, "RESET".toList] =
      some [⟨false, 0x0002#16⟩, ⟨false, 0x1002#16⟩, ⟨false, 0x2F03#16⟩, ⟨true, 0x0000#16⟩] := by decide
theorem test_assemble_refuses : assemble ["LED 256".toList] = none ∧ assemble ["HALT".toList] = none := by decide

/-! ## The Mapper: the worked examples of R110 and E1 to E9 -/

theorem test_map_letters :
    mapKey 0x61#8 false = ⟨0x00#8, 0x04#8⟩ ∧ mapKey 0x41#8 true = ⟨0x00#8, 0x04#8⟩ ∧
      mapKey 0x61#8 true = ⟨0x02#8, 0x04#8⟩ ∧ mapKey 0x5A#8 false = ⟨0x02#8, 0x1D#8⟩ := by decide
theorem test_map_others :
    mapKey 0x30#8 true = ⟨0x00#8, 0x27#8⟩ ∧ mapKey 0x29#8 false = ⟨0x02#8, 0x27#8⟩ ∧
      mapKey 0x5E#8 true = ⟨0x02#8, 0x23#8⟩ ∧ mapKey 0x20#8 true = ⟨0x00#8, 0x00#8⟩ := by decide

/-! ## One step of each command -/

/-- P1 step 3. -/
theorem test_tick_character :
    (after (exec (.tick true false) (pending 0))).map (fun t => (t.inEmit, t.seq, t.curChar, t.wdtService)) =
      some (some [0x00#8, 0x00#8, 0x04#8, 0x00#8, 0x00#8, 0x00#8, 0x00#8, 0x00#8], .releasePending, 0x61#8, true) := by
  decide

/-- V-HLT-1. -/
theorem test_tick_trip :
    (after (exec (.tick true false) { stuck with halted := false })).map (fun t => (t.halted, t.wdtService, t.inEmit, t.rptKey.head?)) =
      some (true, false, none, some 0x0B#8) := by decide

/-- The worked example of R150. -/
theorem test_hostLed_first_byte :
    (after (exec (.hostLed 0x02#8) booted)).map (fun t => (t.ledState, t.capsOn, t.indicator, t.toggleCnt)) =
      some (0x02#8, true, true, 0x01#8) := by decide

/-- R24, R152: the counter saturates. -/
theorem test_hostLed_saturates :
    (after (exec (.hostLed 0x02#8) { capsOff with toggleCnt := 0xFF#8 })).map State.toggleCnt = some 0xFF#8 := by decide

/-- The worked example of R201. -/
theorem test_setReport_one :
    (after (exec (.setReport 1 0x02#8) { capsOff with toggleCnt := 0x00#8 })).map
      (fun t => (t.ledState, t.capsOn, t.toggleCnt, t.ctrlResp)) = some (0x02#8, true, 0x01#8, some []) := by decide
theorem test_setReport_two :
    (after (exec (.setReport 2 0x00#8) capsOnce)).map (fun t => (t.ledState, t.capsOn, t.ctrlResp)) =
      some (0x02#8, true, some []) := by decide

/-- The worked example of R200. -/
theorem test_getReport_masks :
    (after (exec .getReport (holding 1 0x62#8 0x02#8 0x05#8))).map (fun t => (t.ctrlResp, t.readRpt)) =
      some (some (List.replicate 8 0x00#8), [0x02#8, 0x00#8, 0x05#8, 0x00#8, 0x00#8, 0x00#8, 0x00#8, 0x00#8]) := by decide

/-- The corner case of R202: IDLE_RATE_RESET is answered. -/
theorem test_getIdle_after_reset : (after (exec .getIdle booted)).map State.ctrlResp = some (some [0x5A#8]) := by decide

/-- P2 step 14. -/
theorem test_setIdle : (after (exec (.setIdle 0x7D#8) booted)).map (fun t => (t.idleRate, t.ctrlResp)) =
    some (0x7D#8, some []) := by decide

/-- P2 step 16. -/
theorem test_ctrlOther : (after (exec (.ctrlOther 0x03#8) booted)).map (fun t => (t.ctrlResp, t.outputs.inEmit)) =
    some (some [], none) := by decide

/-- P5: one slot. -/
theorem test_single_key_report :
    (after (exec (.tick true false)
      { State.boot single [0x78#8] [] with seq := .characterPending, ledState := 0x06#8, capsOn := true })).map State.inEmit =
      some (some [0x02#8, 0x00#8, 0x1B#8]) := by decide

/-- V-HLT-3. -/
theorem test_reset_ends_the_halt :
    (after (step (given stuck [⟨true, 0x0002#16⟩]))).map (fun t => (t.halted, t.toggleCnt, t.rptKey, t.ledState, t.inEmit)) =
      some (false, 0x00#8, List.replicate 6 0x00#8, 0xFF#8, none) := by decide

/-! ## Witnesses: the encoding -/

theorem wit_DecodeOfEncode : (Instr.setReport 15 0xFF#8).wf = true ∧ (Instr.setReport 0 0x00#8).wf = true := by decide

theorem wit_EncodeOfDecode : decode 0x2F02#16 = .ok (.setReport 15 0x02#8) ∧ decode 0x60FF#16 = .ok (.ctrlOther 0xFF#8) :=
  ⟨rfl, rfl⟩

theorem wit_DecodeSelectsByMaskAndMatch :
    rowTick.hits 0x0003#16 = true ∧ rowCtrlOther.hits 0x60FF#16 = true ∧
      (∀ r ∈ opcodeRows, r.hits 0xFFFF#16 = false) := by decide

theorem wit_OperandsAreTheirFields :
    decode 0x0002#16 = .ok (.tick true false) ∧ decode 0x10FF#16 = .ok (.hostLed 0xFF#8) ∧
      decode 0x2F80#16 = .ok (.setReport 15 0x80#8) ∧ decode 0x50FF#16 = .ok (.setIdle 0xFF#8) ∧
      decode 0x6080#16 = .ok (.ctrlOther 0x80#8) := ⟨rfl, rfl, rfl, rfl, rfl⟩

/-- Both ends of each clause's range. -/
theorem wit_ReservedWordsAreRefused :
    (given booted [⟨false, 0x7000#16⟩]).inputs = [⟨false, 0x7000#16⟩] ∧
      [0x7000, 0xFFFF].all (fun w => decide (7 ≤ w / 4096)) ∧
      [0x0004, 0x0FFF].all (fun w => decide (w / 4096 = 0 ∧ w / 4 % 1024 ≠ 0)) ∧
      [0x1100, 0x1FFF, 0x5100, 0x5F00, 0x6100, 0x6FFF].all
        (fun w => decide ((w / 4096 = 1 ∨ w / 4096 = 5 ∨ w / 4096 = 6) ∧ w / 256 % 16 ≠ 0)) ∧
      [0x3001, 0x3FFF, 0x4001, 0x4FFF].all (fun w => decide ((w / 4096 = 3 ∨ w / 4096 = 4) ∧ w % 4096 ≠ 0)) ∧
      [0x2000, 0x2FFF].all (fun w => decide (w / 4096 = 2)) := by decide

theorem wit_ScriptLinesStandForWords :
    (AsmLine.setRpt 15 255).input = some ⟨false, 0x2FFF#16⟩ ∧ (AsmLine.setRpt 16 0).input = some ⟨false, 0x2F00#16⟩ := by
  decide

/-! ## Witnesses: the step and RESET -/

theorem wit_StepRunsTheDecodedCommand_next :
    ∃ t, decode 0x1002#16 = .ok (.hostLed 0x02#8) ∧
      exec (.hostLed 0x02#8) { given booted [⟨false, 0x1002#16⟩] with inputs := [] } = .next t := ⟨_, rfl, rfl⟩

theorem wit_StepRunsTheDecodedCommand_fault :
    exec (.tick true true) { given (pending 4) [⟨false, 0x0003#16⟩] with inputs := [] } = .fault (.msgOutOfRange 4) := rfl

theorem wit_OneInputOneRecord :
    (∃ t, step booted = .next t ∧ booted.inputs = []) ∧ ∃ t, step (given booted [⟨false, 0x0002#16⟩]) = .next t :=
  ⟨⟨_, rfl, rfl⟩, _, rfl⟩

theorem wit_MessageRomIsNeverWritten : ∃ t, step (given (holding 2 0x31#8 0x00#8 0x1E#8) [⟨false, 0x0002#16⟩]) = .next t :=
  ⟨_, rfl⟩

theorem wit_ResetSetsEveryRegister :
    (given stuck [⟨true, 0xFFFF#16⟩]).inputs = ⟨true, 0xFFFF#16⟩ :: [] ∧ stuck.halted = true := by decide

theorem wit_NothingElseSurvivesReset :
    (given capsOnce [⟨true, 0x0000#16⟩]).build = (given tripping [⟨true, 0x0002#16⟩]).build ∧
      (given capsOnce [⟨true, 0x0000#16⟩]).msg = (given tripping [⟨true, 0x0002#16⟩]).msg ∧
      capsOnce.toggleCnt ≠ tripping.toggleCnt := by decide

/-! ## Witnesses: the Mapper and the Report Buffer -/

/-- Both ends of each range, and the codes just outside. -/
theorem wit_LettersMapWithCaseXorCaps :
    (mapKey 0x61#8 false).key = 0x04#8 ∧ (mapKey 0x7A#8 true).key = 0x1D#8 ∧ (mapKey 0x41#8 false).key = 0x04#8 ∧
      (mapKey 0x5A#8 true).key = 0x1D#8 ∧ (mapKey 0x60#8 false).key = 0x00#8 ∧ (mapKey 0x7B#8 false).key = 0x00#8 := by
  decide

theorem wit_DigitsAndSymbolsIgnoreCaps :
    mapKey 0x31#8 true = ⟨0x00#8, 0x1E#8⟩ ∧ mapKey 0x39#8 false = ⟨0x00#8, 0x26#8⟩ := by decide

/-- Both ends of each range R119 prints. -/
theorem wit_OtherCharactersMapToNeutral :
    [0x00#8, 0x20#8, 0x22#8, 0x27#8, 0x2B#8, 0x2F#8, 0x3C#8, 0x3F#8, 0x5B#8, 0x5D#8, 0x5F#8, 0x60#8, 0x7B#8, 0xFF#8].all
      (fun c => mapKey c true == KeyPair.neutral) = true := by decide

theorem wit_MapperOutputSet : (mapKey 0x20#8 true).key = 0x00#8 ∧ (mapKey 0x3A#8 true).key = 0x33#8 := by decide

/-- The invariant of R143 in a state that holds a key with its modifier. -/
theorem report_holding : ReportInv (holding 1 0x42#8 0x02#8 0x05#8) := ⟨0x05#8, by decide, by decide⟩

theorem wit_ReportStaysABootKeyboardReport :
    ReportInv (given (holding 1 0x42#8 0x02#8 0x05#8) [⟨false, 0x0002#16⟩]) ∧
      ∃ t, step (given (holding 1 0x42#8 0x02#8 0x05#8) [⟨false, 0x0002#16⟩]) = .next t := ⟨report_holding, _, rfl⟩

/-- A reachable state that holds a key: two presses of "ab1". -/
theorem reachable_holding : ∃ s, Reachable s ∧ s.seq = .releasePending ∧ s.rptKey.head? = some 0x04#8 :=
  ⟨_, .step (.step (.boot six ab1 [⟨false, 0x0002#16⟩, ⟨false, 0x0002#16⟩] (by decide)) rfl) rfl, by decide, by decide⟩

/-! ## Witnesses: the LED controller -/

theorem wit_HostLedUpdatesTheLedController :
    stuck.halted = true ∧ (capsOnce.halted = false ∧ 0x02#8 = capsOnce.ledState) ∧
      (capsOff.halted = false ∧ 0x02#8 ≠ capsOff.ledState) := by decide

theorem wit_LedByteIsDeduplicated :
    (∃ t, exec (.hostLed 0x02#8) capsOff = .next t) ∧ ∃ t, exec (.setReport 1 0x02#8) capsOff = .next t :=
  ⟨⟨_, rfl⟩, _, rfl⟩

theorem wit_HostSentinelByte :
    (booted.halted = false ∧ booted.ledState = 0xFF#8) ∧
      (capsOff.halted = false ∧ capsOff.ledState ≠ 0xFF#8 ∧ capsOff.capsOn = false) ∧
      (capsOnce.halted = false ∧ capsOnce.ledState ≠ 0xFF#8 ∧ capsOnce.capsOn = true) := by decide

theorem wit_OtherLockBitsNeverCount :
    (capsOnce.halted = false ∧ capsOnce.capsOn = capsOnce.ledState.getLsbD 1 ∧
      (0x07#8).getLsbD 1 = capsOnce.ledState.getLsbD 1) ∧
      (capsOff.halted = false ∧ capsOff.capsOn = capsOff.ledState.getLsbD 1 ∧
        (0x05#8).getLsbD 1 = capsOff.ledState.getLsbD 1) := by decide

/-- R154 read without its premise fails at the sentinel (log 12): 0xFE differs from 0xFF in bit 0 only, and counts. -/
theorem test_sentinel_counts_a_byte_with_bit_1 :
    (after (exec (.hostLed 0xFE#8) booted)).map (fun t => (t.capsOn, t.toggleCnt)) = some (true, 0x01#8) := by decide

theorem wit_CapsFollowsTheStoredByte :
    LedInv (given booted [⟨false, 0x1000#16⟩]) ∧ LedInv capsOnce ∧
      ∃ t, step (given booted [⟨false, 0x1000#16⟩]) = .next t :=
  ⟨.inr (by decide), .inl (by decide), _, rfl⟩

theorem wit_LedValidNeedsAHostByte :
    (after (step (given booted [⟨false, 0x2100#16⟩]))).map (fun t => (booted.ledValid, t.ledValid)) = some (false, true) := by
  decide

theorem wit_CounterCountsCapsEdges :
    (given capsOff ([(.interruptOut, 0x02#8), (.control, 0x02#8), (.control, 0x00#8), (.interruptOut, 0x03#8)].map
        fun d => inputOf (ledCommand d))).inputs =
      [⟨false, 0x1002#16⟩, ⟨false, 0x2102#16⟩, ⟨false, 0x2100#16⟩, ⟨false, 0x1003#16⟩] ∧ capsOff.halted = false ∧
      capsEdges capsOff.ledState capsOff.capsOn [0x02#8, 0x02#8, 0x00#8, 0x03#8] = 2 := by decide

/-! ## The invariant of concrete states -/

/-- The invariant does not speak of the inputs still to come. -/
theorem inv_given {s : State} (h : Inv s) (inputs : List Input) : Inv (given s inputs) :=
  ⟨h.rom, h.report, h.cursor, h.led, h.halt, h.staged⟩

theorem inv_booted : Inv booted :=
  ⟨rfl, ⟨0x00#8, by decide, by decide⟩, ⟨fun _ => rfl, .inl (by decide)⟩, .inr (by decide), nofun,
    ⟨nofun, fun _ => ⟨rfl, rfl⟩⟩⟩

theorem inv_capsOff : Inv capsOff :=
  ⟨rfl, ⟨0x00#8, by decide, by decide⟩, ⟨fun _ => rfl, .inl (by decide)⟩, .inl (by decide), nofun,
    ⟨nofun, fun _ => ⟨rfl, rfl⟩⟩⟩

theorem inv_pending : Inv (pending 2) :=
  ⟨rfl, ⟨0x00#8, by decide, by decide⟩, ⟨by decide, .inl (by decide)⟩, .inr (by decide), nofun,
    ⟨nofun, fun _ => ⟨rfl, rfl⟩⟩⟩

/-- Halted, holding a key. -/
theorem inv_stuck : Inv stuck :=
  ⟨rfl, ⟨0x0B#8, by decide, by decide⟩, ⟨by decide, .inl (by decide)⟩, .inl (by decide), fun _ => by decide,
    ⟨fun _ => ⟨rfl, false, rfl, rfl⟩, fun h => absurd rfl h⟩⟩

theorem wit_FiveEdgesTripAndFourDoNot :
    Inv (given capsOff (inputOf (ledCommand (.control, 0x02#8)) :: [inputOf (.tick true true)])) ∧
      capsOff.halted = false ∧ capsOff.toggleCnt.toNat + capsEdges capsOff.ledState capsOff.capsOn [0x02#8] = 5 ∧
      capsOff.toggleCnt.toNat + capsEdges capsOff.ledState capsOff.capsOn [0x01#8] = 4 ∧ 0xFF#8 ≠ 0x02#8 :=
  ⟨inv_given inv_capsOff _, by decide, by decide, by decide, by decide⟩

/-! ## Witnesses: TICK -/

theorem wit_TripHaltsTheBlock : tripping.halted = false ∧ 5 ≤ tripping.toggleCnt.toNat := by decide

theorem wit_NotReadyTickOnlyServices : capsOnce.halted = false ∧ capsOnce.toggleCnt.toNat < 5 := by decide

theorem wit_IdleStep : capsOnce.halted = false ∧ capsOnce.toggleCnt.toNat < 5 ∧ capsOnce.seq = .idle := by decide

/-- A mapped character, the last one, and the terminator of an empty message. -/
theorem wit_CharacterStep :
    (pending 0).halted = false ∧ (pending 0).toggleCnt.toNat < 5 ∧ (pending 0).seq = .characterPending ∧
      (pending 0).msg.read (pending 0).cursor = some 0x61#8 ∧ (pending 2).msg.read (pending 2).cursor = some 0x31#8 ∧
      emptyPending.msg.read emptyPending.cursor = some 0x00#8 := by decide

/-- The later clauses of CharacterStep and ReleaseStep: the empty message, and a character before the last. -/
theorem wit_steps_in_the_message :
    RomInv emptyPending ∧ CursorInv emptyPending ∧ RomInv emptyHeld ∧ CursorInv emptyHeld ∧
      RomInv (holding 1 0x62#8 0x00#8 0x05#8) ∧ CursorInv (holding 1 0x62#8 0x00#8 0x05#8) :=
  ⟨rfl, ⟨fun _ => rfl, .inr ⟨rfl, rfl⟩⟩, rfl, ⟨fun _ => rfl, .inr ⟨rfl, rfl⟩⟩, rfl, ⟨by decide, .inl (by decide)⟩⟩

theorem wit_ReleaseStep_wraps :
    (emptyHeld.seq = .releasePending ∧ emptyHeld.msg.read emptyHeld.cursor = some 0x00#8) ∧
      ((holding 2 0x31#8 0x00#8 0x1E#8).msg.read 2 = some 0x31#8 ∧
        (holding 2 0x31#8 0x00#8 0x1E#8).msg.read (2 + 1) = some 0x00#8) := by decide

theorem wit_ReleaseStep_advances :
    (holding 1 0x62#8 0x00#8 0x05#8).halted = false ∧ (holding 1 0x62#8 0x00#8 0x05#8).toggleCnt.toNat < 5 ∧
      (holding 1 0x62#8 0x00#8 0x05#8).msg.read 1 = some 0x62#8 ∧
      (holding 1 0x62#8 0x00#8 0x05#8).msg.read (1 + 1) = some 0x31#8 := by decide

theorem wit_AwaitStep : awaiting.halted = false ∧ awaiting.toggleCnt.toNat < 5 ∧ awaiting.seq = .awaitButtonRelease := by
  decide

theorem wit_EmissionsAreCharAndReleaseSteps :
    (after (exec (.tick true true) (pending 1))).map (fun t => t.inEmit.isSome) = some true ∧
      (after (exec (.tick false true) (pending 1))).map (fun t => t.inEmit.isSome) = some false := by decide

theorem wit_WatchdogIsServicedByRunningTicks :
    (after (exec (.tick false true) booted)).map State.wdtService = some true ∧
      (after (exec .getIdle booted)).map State.wdtService = some false := by decide

theorem wit_IdleOnlyThroughRelease :
    (after (step (given awaiting [⟨false, 0x0003#16⟩]))).map State.seq = some .idle ∧
      (after (step (given (pending 1) [⟨true, 0x0003#16⟩]))).map State.seq = some .idle ∧
      (after (exec .getReport (pending 1))).map State.seq = some .characterPending := by decide

theorem wit_CursorStaysInTheMessage :
    RomInv (given (pending 2) [⟨false, 0x0002#16⟩]) ∧ CursorInv (given (pending 2) [⟨false, 0x0002#16⟩]) ∧
      ∃ t, step (given (pending 2) [⟨false, 0x0002#16⟩]) = .next t := ⟨rfl, ⟨by decide, .inl (by decide)⟩, _, rfl⟩

theorem wit_PressCycleTypesTheMessage :
    messageWf ab1 = true ∧ ab1 ≠ [] ∧ booted.halted = false ∧ booted.toggleCnt.toNat < 5 ∧ booted.seq = .idle ∧
      booted.cursor = 0 ∧ booted.msg = Memory.rom ab1 ∧
      [false, false, false, true, true, false].length = 2 * ab1.length := by decide

/-- The six reports of E12. -/
theorem test_reports_of_ab1 :
    (messageReports single false ab1) =
      [[0x00#8, 0x00#8, 0x04#8], [0x00#8, 0x00#8, 0x00#8], [0x00#8, 0x00#8, 0x05#8], [0x00#8, 0x00#8, 0x00#8],
        [0x00#8, 0x00#8, 0x1E#8], [0x00#8, 0x00#8, 0x00#8]] := by decide

theorem wit_TypingIgnoresOtherRegisters : ∃ t, exec (.tick true false) (pending 1) = .next t := ⟨_, rfl⟩

theorem wit_TickFrame :
    (after (exec (.tick true false) capsOnce)).map (fun t => (t.toggleCnt, t.inEmit)) = some (0x00#8, none) ∧
      (after (exec (.tick true false) (holding 0 0x61#8 0x00#8 0x04#8))).map State.cursor = some 1 ∧
      (after (exec (.tick true false) (pending 1))).map State.curChar = some 0x62#8 := by decide

theorem wit_EveryCommandCompletes :
    [Instr.hostLed 0#8, .setReport 1 0#8, .getReport, .getIdle, .setIdle 0#8, .ctrlOther 0#8].all
        (fun i => i.agent == .transport) = true ∧
      Inv (given (pending 2) []) := ⟨by decide, inv_given inv_pending []⟩

theorem wit_ReadBeyondTheMessageFaults :
    RomInv (pending 4) ∧ (pending 4).halted = false ∧ (pending 4).toggleCnt.toNat < 5 ∧
      (pending 4).seq = .characterPending ∧ (holding 4 0x00#8 0x00#8 0x00#8).seq = .releasePending ∧
      (pending 4).msg.len < (pending 4).cursor := ⟨rfl, by decide, by decide, by decide, by decide, by decide⟩

/-! ## Witnesses: control requests -/

theorem wit_GetReportAnswersAMaskedCopy :
    stuck.halted = true ∧ (holding 1 0x42#8 0x02#8 0x05#8).halted = false ∧
      (holding 1 0x42#8 0x02#8 0x05#8).rptKey = 0x05#8 :: List.replicate 5 0x00#8 ∧
      ReportInv (holding 1 0x42#8 0x02#8 0x05#8) := ⟨by decide, by decide, by decide, report_holding⟩

theorem wit_SetReportDeliversOneByte :
    stuck.halted = true ∧ (capsOff.halted = false ∧ (0 ≠ 1 ∨ 0x02#8 = capsOff.ledState)) ∧
      (capsOff.halted = false ∧ (2 ≠ 1 ∨ 0x02#8 = capsOff.ledState)) ∧
      (capsOff.halted = false ∧ (1 ≠ 1 ∨ 0x00#8 = capsOff.ledState)) ∧
      (capsOff.halted = false ∧ 1 = 1 ∧ 0x02#8 ≠ capsOff.ledState) := by decide

/-- Two steps after power-on, without a SET_IDLE: IDLE_RATE is what it was. -/
theorem wit_GetIdleAnswersTheIdleRate :
    [0x0002#16, 0x4000#16].map decoded = [some (.tick true false), some .getIdle] ∧
      (after (run 2 (State.boot six ab1 [⟨false, 0x0002#16⟩, ⟨false, 0x4000#16⟩]))).map
        (fun t => (t.halted, t.idleRate)) = some (false, 0x5A#8) := by decide

/-- For the later clauses of GetIdleAnswersTheIdleRate, SetIdleStoresTheByte and UnsupportedRequestsChangeNothing, both clauses. -/
theorem wit_IdleAndOtherRequests : stuck.halted = true ∧ booted.halted = false := by decide

theorem wit_ControlRequestsSpareTheSequencer :
    (∃ t, exec (.setReport 1 0x02#8) (holding 1 0x62#8 0x00#8 0x05#8) = .next t) ∧
      (∃ t, exec (.setReport 2 0x02#8) (holding 1 0x62#8 0x00#8 0x05#8) = .next t) ∧
      ∃ t, exec (.setIdle 0x02#8) (holding 1 0x62#8 0x00#8 0x05#8) = .next t := ⟨⟨_, rfl⟩, ⟨_, rfl⟩, _, rfl⟩

theorem wit_ControlResponses :
    (after (exec .getReport (holding 1 0x42#8 0x02#8 0x05#8))).map (fun t => t.ctrlResp.map List.length) = some (some 8) ∧
      (after (exec (.hostLed 0x00#8) booted)).map State.ctrlResp = some none ∧
      ReportInv (holding 1 0x42#8 0x02#8 0x05#8) := ⟨by decide, by decide, report_holding⟩

theorem wit_IdleRateChangesOnlyBySetIdle :
    (after (step (given booted [⟨false, 0x5001#16⟩]))).map State.idleRate = some 0x01#8 ∧
      (after (step (given { booted with idleRate := 0x01#8 } [⟨true, 0x0000#16⟩]))).map State.idleRate = some 0x5A#8 := by
  decide

/-! ## Witnesses: the halt and the invariant -/

theorem wit_HaltedCommandsHaveNoEffect : stuck.halted = true := by decide

theorem wit_HaltEntryAndExit :
    (after (step (given tripping [⟨false, 0x0001#16⟩]))).map (fun t => (tripping.halted, t.halted)) = some (false, true) ∧
      (after (step (given stuck [⟨true, 0x0001#16⟩]))).map (fun t => (stuck.halted, t.halted)) = some (true, false) := by
  decide

theorem wit_HaltedUntilReset :
    stuck.halted = true ∧ ([Instr.tick true false, .hostLed 0x00#8, .getReport].all Instr.wf) = true ∧
      (given stuck ([Instr.tick true false, .hostLed 0x00#8, .getReport].map inputOf ++ [⟨true, 0x0000#16⟩])).inputs =
        [⟨false, 0x0002#16⟩, ⟨false, 0x1000#16⟩, ⟨false, 0x3000#16⟩, ⟨true, 0x0000#16⟩] := by decide

theorem wit_EveryStepKeepsTheInvariant :
    Inv (given (pending 2) [⟨false, 0x0002#16⟩]) ∧ Inv (given stuck [⟨true, 0x0000#16⟩]) ∧
      (∃ t, step (given (pending 2) [⟨false, 0x0002#16⟩]) = .next t) ∧
      ∃ t, step (given stuck [⟨true, 0x0000#16⟩]) = .next t := ⟨inv_given inv_pending _, inv_given inv_stuck _, ⟨_, rfl⟩, _, rfl⟩

theorem wit_ResetHasTheInvariant : messageWf ab1 = true ∧ messageWf [] = true := by decide

/-- A reachable state, and one that an illegal word is presented to. -/
theorem wit_ReachableStatesNeverFault :
    Reachable (State.boot single [0x78#8] [⟨false, 0x7000#16⟩]) ∧
      step (State.boot single [0x78#8] [⟨false, 0x7000#16⟩]) = .refused (.illegalWord .reservedOpcode) :=
  ⟨.boot _ _ _ (by decide), rfl⟩

theorem wit_ReportsHaveTheDeclaredLength :
    Inv (given (pending 2) [⟨false, 0x0002#16⟩]) ∧
      (after (step (given (pending 2) [⟨false, 0x0002#16⟩]))).map (fun t => t.inEmit.isSome) = some true :=
  ⟨inv_given inv_pending _, by decide⟩

end Sys2Proof.Tests
end

section
/-! The output ports (10_state.md R52 to R54): which commands service the watchdog, which answer a control request, and
what the status outputs show. -/

namespace Sys2Proof.Machine

/-- TRIP on numbers, not asserted. -/
theorem State.trip_eq_false_iff (s : State) : s.trip = false ↔ s.toggleCnt.toNat < 5 := by
  rw [← Bool.not_eq_true, State.trip_iff, Nat.not_le]

/-- LED_VALID on numbers. -/
theorem State.ledValid_iff (s : State) : s.ledValid = true ↔ s.ledState.toNat ≠ 255 := by
  rw [State.ledValid, bne_iff_ne]
  exact (BitVec.toNat_inj (y := Config.ledSentinel)).not.symm

/-- Whatever the sequencer does in its step, WDT_SERVICE and CTRL_RESP stay as the tick set them before. -/
theorem State.stepSequencer_keeps_wdtService_ctrlResp {s t : State} {btn : Bool}
    (h : s.stepSequencer btn = .next t) : t.wdtService = s.wdtService ∧ t.ctrlResp = s.ctrlResp := by
  rcases State.stepSequencer_cases h with ⟨-, -, rfl⟩ | ⟨-, -, rfl⟩ | ⟨-, c, -, rfl⟩ | ⟨-, -, rfl⟩ | ⟨-, -, rfl⟩ |
    ⟨-, -, rfl⟩ | ⟨-, -, rfl⟩ <;> exact ⟨rfl, rfl⟩

/-- R170: a TICK passes the watchdog service exactly when neither the halted gate nor the trip check stops it. -/
theorem execTick_wdtService_iff {s t : State} {rdy btn : Bool} (h : execTick rdy btn s = .next t) :
    t.wdtService = true ↔ s.halted = false ∧ s.trip = false := by
  rcases execTick_cases h with ⟨hh, rfl⟩ | ⟨-, ht, rfl⟩ | ⟨hh, ht, -, rfl⟩ | ⟨hh, ht, -, hs⟩
  · simp [hh]
  · simp [ht]
  · simp [hh, ht]
  · simp [hh, ht, (State.stepSequencer_keeps_wdtService_ctrlResp hs).1]

/-- A TICK answers no control request. -/
theorem execTick_ctrlResp {s t : State} {rdy btn : Bool} (h : execTick rdy btn s = .next t) : t.ctrlResp = none := by
  rcases execTick_cases h with ⟨-, rfl⟩ | ⟨-, -, rfl⟩ | ⟨-, -, -, rfl⟩ | ⟨-, -, -, hs⟩
  · rfl
  · rfl
  · rfl
  · exact (State.stepSequencer_keeps_wdtService_ctrlResp hs).2

/-- R52: no command but TICK services the watchdog. -/
theorem exec_other_wdtService {i : Instr} {s t : State} (h : exec i s = .next t) (hi : ∀ rdy btn, i ≠ .tick rdy btn) :
    t.wdtService = false := by
  obtain ⟨led, cnt, caps, idle, resp, rfl, -⟩ := exec_other_cases h hi
  rfl

/-- R53: which commands other than TICK answer, and how long an answer is. -/
theorem exec_other_ctrlResp {i : Instr} {s t : State} (h : exec i s = .next t) (hi : ∀ rdy btn, i ≠ .tick rdy btn) :
    (t.ctrlResp ≠ none ↔ s.halted = false ∧ ∀ b, i ≠ .hostLed b) ∧
      (ReportInv s → ∀ d, t.ctrlResp = some d → d.length ≤ s.build.rlen) := by
  obtain ⟨led, cnt, caps, idle, resp, rfl, -, -, answers, short, -⟩ := exec_other_cases h hi
  exact ⟨answers, short⟩

/-- R40: the code of a state names it. -/
@[simp] theorem Seq.ofCode_code (q : Seq) : Seq.ofCode q.code = q := by
  cases q <;> rfl

/-- R40: every two-bit code is the code of the state it names. -/
@[simp] theorem Seq.code_ofCode (c : BitVec 2) : (Seq.ofCode c).code = c := by
  revert c; decide

/-- Settles O36: a TICK services exactly when it gets past the halted gate and the trip check; no other command does. -/
theorem watchdogIsServicedByRunningTicks : Obligations.WatchdogIsServicedByRunningTicks := by
  intro i s t h
  rcases Instr.tick_or_other i with ⟨rdy, btn, rfl⟩ | hi
  · rw [execTick_wdtService_iff h, State.trip_eq_false_iff]
    simp
  · simp [exec_other_wdtService h hi, hi]

/-- Settles O51: a TICK answers nothing, and every other command is one of `exec_other_cases`. -/
theorem controlResponses : Obligations.ControlResponses := by
  intro i s t h
  rcases Instr.tick_or_other i with ⟨rdy, btn, rfl⟩ | hi
  · simp [execTick_ctrlResp h]
  · obtain ⟨answers, short⟩ := exec_other_ctrlResp h hi
    exact ⟨by simpa [hi] using answers, short⟩

/-- Settles O60: the two outputs that compare a register are on numbers in `State.ledValid_iff` and `State.trip_iff`;
the others read their register. -/
theorem statusOutputsAndSequencerCodes : Obligations.StatusOutputsAndSequencerCodes :=
  ⟨fun s => ⟨rfl, rfl, s.ledValid_iff, rfl, rfl, rfl, s.trip_iff⟩, rfl, Seq.ofCode_code, Seq.code_ofCode⟩

end Sys2Proof.Machine
end

section
/-! The message ROM (20_memory.md R72): what the chip holds is the same after every step. -/

namespace Sys2Proof.Machine

/-- R72, R251: a step leaves MSG and the build parameters as they are, whether it is idle, a RESET or a command. -/
theorem step_keeps_msg_build {s t : State} (h : step s = .next t) : t.msg = s.msg ∧ t.build = s.build := by
  rcases step_cases h with ⟨-, rfl⟩ | ⟨inp, rest, -, -, rfl⟩ | ⟨inp, rest, i, u, -, -, -, he, rfl⟩
  · simp
  · simp
  · obtain ⟨hmsg, hbuild, -, -⟩ := exec_frame he
    simp [hmsg, hbuild]

/-- Settles O10: the ROM itself is kept by `step_keeps_msg_build`, and so is what any index of it reads as. -/
theorem messageRomIsNeverWritten : Obligations.MessageRomIsNeverWritten := by
  intro s t h
  have hmsg : t.msg = s.msg := (step_keeps_msg_build h).1
  exact ⟨hmsg, fun a => congrArg (Memory.read · a) hmsg⟩

end Sys2Proof.Machine
end

section
/-! The opcode table (30_encoding.md R91, R93): every row fixes OP and no two rows share it, so a word is of one row at
most, and the decoder answers a command of exactly that row. -/

namespace Sys2Proof

theorem OpcodeRow.hits_iff (r : OpcodeRow) (w : Word) : r.hits w = true ↔ w &&& r.mask = r.value := by
  rw [OpcodeRow.hits, beq_iff_eq]

@[simp] theorem opOf_and (w v : Word) : opOf (w &&& v) = opOf w &&& opOf v := BitVec.extractLsb'_and

theorem opOf_mask_of_mem_opcodeRows : ∀ r ∈ opcodeRows, opOf r.mask = BitVec.allOnes 4 := by decide

/-- R93: the rows differ in OP. -/
theorem opcodeRows_ext_opOf : ∀ r ∈ opcodeRows, ∀ r' ∈ opcodeRows, opOf r.value = opOf r'.value → r = r' := by decide

/-- A row that hits a word fixes the word's OP. -/
theorem OpcodeRow.opOf_value_of_hits {r : OpcodeRow} {w : Word} (hr : r ∈ opcodeRows) (h : r.hits w = true) :
    opOf r.value = opOf w := by
  rw [← (r.hits_iff w).mp h, opOf_and, opOf_mask_of_mem_opcodeRows r hr, BitVec.and_allOnes]

theorem OpcodeRow.eq_of_hits {r r' : OpcodeRow} {w : Word} (hr : r ∈ opcodeRows) (hr' : r' ∈ opcodeRows)
    (h : r.hits w = true) (h' : r'.hits w = true) : r = r' :=
  opcodeRows_ext_opOf r hr r' hr' ((opOf_value_of_hits hr h).trans (opOf_value_of_hits hr' h').symm)

theorem rowOf_mem_opcodeRows (i : Instr) : rowOf i ∈ opcodeRows := by
  cases i <;> simp [rowOf, opcodeRows]

/-- What the decoder answers, said once: a command whose row hits the word, or an error when no row does. -/
theorem decode_cases (w : Word) :
    (∃ i, decode w = .ok i ∧ (rowOf i).hits w = true) ∨
      (∃ why, decode w = .error why) ∧ ∀ r ∈ opcodeRows, r.hits w = false := by
  unfold decode
  split_ifs with h1 h2 h3 h4 h5 h6 h7
  case neg => exact .inr ⟨⟨_, rfl⟩, by simp [opcodeRows, h1, h2, h3, h4, h5, h6, h7]⟩
  all_goals exact .inl ⟨_, rfl, ‹_›⟩

/-- R93: a row hits a word exactly when the word decodes to a command of that row. -/
theorem OpcodeRow.hits_iff_decode {r : OpcodeRow} (hr : r ∈ opcodeRows) (w : Word) :
    r.hits w = true ↔ ∃ i, rowOf i = r ∧ decode w = .ok i := by
  rcases decode_cases w with ⟨i, hd, hi⟩ | ⟨⟨why, hd⟩, hnone⟩
  · constructor
    · intro h
      exact ⟨i, eq_of_hits (rowOf_mem_opcodeRows i) hr hi h, hd⟩
    · rintro ⟨j, rfl, hj⟩
      cases hd.symm.trans hj
      exact hi
  · simp [hd, hnone r hr]

/-- R97: the words that match no row are the illegal ones. -/
theorem no_row_hits_iff_decode_error (w : Word) :
    (∀ r ∈ opcodeRows, r.hits w = false) ↔ ∃ why, decode w = .error why := by
  rcases decode_cases w with ⟨i, hd, hi⟩ | ⟨herr, hnone⟩
  · constructor
    · intro hnone
      simp [hnone _ (rowOf_mem_opcodeRows i)] at hi
    · rintro ⟨why, hw⟩
      simp [hd] at hw
  · exact iff_of_true hnone herr

/-- R91: which commands each row encodes. -/
theorem rowOf_eq_iff (i : Instr) :
    (rowOf i = rowTick ↔ ∃ r b, .tick r b = i) ∧ (rowOf i = rowHostLed ↔ ∃ b, .hostLed b = i) ∧
      (rowOf i = rowSetReport ↔ ∃ n b, .setReport n b = i) ∧ (rowOf i = rowGetReport ↔ .getReport = i) ∧
      (rowOf i = rowGetIdle ↔ .getIdle = i) ∧ (rowOf i = rowSetIdle ↔ ∃ b, .setIdle b = i) ∧
      (rowOf i = rowCtrlOther ↔ ∃ q, .ctrlOther q = i) := by
  cases i <;> simp [rowOf] <;> decide

/-- Settles O3: the mask and match of each row are what `OpcodeRow.hits_iff_decode` says of that row, whose commands
`rowOf_eq_iff` names; two rows that hit one word are one row by `OpcodeRow.eq_of_hits`. -/
theorem decodeSelectsByMaskAndMatch : Obligations.DecodeSelectsByMaskAndMatch := by
  intro w
  have selects (r : OpcodeRow) (hr : r ∈ opcodeRows) :
      w &&& r.mask = r.value ↔ ∃ i, rowOf i = r ∧ decode w = .ok i :=
    (r.hits_iff w).symm.trans (OpcodeRow.hits_iff_decode hr w)
  refine ⟨(selects rowTick (by decide)).trans ?_, (selects rowHostLed (by decide)).trans ?_,
    (selects rowSetReport (by decide)).trans ?_, (selects rowGetReport (by decide)).trans ?_,
    (selects rowGetIdle (by decide)).trans ?_, (selects rowSetIdle (by decide)).trans ?_,
    (selects rowCtrlOther (by decide)).trans ?_, fun _ hr _ hr' => OpcodeRow.eq_of_hits hr hr',
    no_row_hits_iff_decode_error w⟩
  all_goals simp only [rowOf_eq_iff, exists_exists_eq_and, exists_exists_exists_and_eq, exists_eq_left']

end Sys2Proof
end

section
/-! The Mapper's letters (41_mapper.md R112 to R114): the two ranges of codes, their keys and their modifier. -/

namespace Sys2Proof.Machine

/-- R112: the first case of the rules. -/
theorem mapKey_of_lower {c : Byte} (caps : Bool) (h : 0x61#8 ≤ c ∧ c ≤ 0x7A#8) :
    mapKey c caps = ⟨letterMod false caps, c - 0x61#8 + 0x04#8⟩ := if_pos h

/-- R113: the second case; a capital's code lies below the range of the first. -/
theorem mapKey_of_upper {c : Byte} (caps : Bool) (h : 0x41#8 ≤ c ∧ c ≤ 0x5A#8) :
    mapKey c caps = ⟨letterMod true caps, c - 0x41#8 + 0x04#8⟩ := by
  have hlower : ¬(0x61#8 ≤ c ∧ c ≤ 0x7A#8) := fun hl => absurd (BitVec.le_trans hl.1 h.2) (by decide)
  rw [mapKey, if_neg hlower, if_pos h]

/-- R114: a lower-case letter is shifted when caps is on. -/
theorem letterMod_false (caps : Bool) : letterMod false caps = if caps then Config.modShift else Config.modNone := by
  cases caps <;> rfl

/-- R114: an upper-case letter is shifted when caps is off. -/
theorem letterMod_true (caps : Bool) : letterMod true caps = if caps then Config.modNone else Config.modShift := by
  cases caps <;> rfl

/-- The place of a code in its range, counted from another first code, does not wrap. -/
theorem toNat_sub_add {c first key : Byte} (h : first ≤ c) (hlt : c.toNat - first.toNat + key.toNat < 2 ^ 8) :
    (c - first + key).toNat = c.toNat - first.toNat + key.toNat := by
  rw [← BitVec.toNat_sub_of_le h] at hlt ⊢
  exact BitVec.toNat_add_of_lt hlt

/-- Settles O14: each range is one case of `mapKey`; its key is `toNat_sub_add`, its modifier `letterMod`. -/
theorem lettersMapWithCaseXorCaps : Obligations.LettersMapWithCaseXorCaps := by
  intro c caps
  constructor <;> intro first last
  · rw [mapKey_of_lower caps ⟨first, last⟩]
    exact ⟨toNat_sub_add first (show c.toNat - 0x61 + 0x04 < 2 ^ 8 by omega), letterMod_false caps⟩
  · rw [mapKey_of_upper caps ⟨first, last⟩]
    exact ⟨toNat_sub_add first (show c.toNat - 0x41 + 0x04 < 2 ^ 8 by omega), letterMod_true caps⟩

end Sys2Proof.Machine
end

section
/-! HOST_LED (43_led_controller.md R150): the counter on numbers, and the command's three cases. -/

namespace Sys2Proof.Machine

/-- R152, R24: the count after a byte, on numbers; it moves at an OFF→ON edge of Caps Lock against CAPS_ON only. -/
theorem toggleCnt_after_byte (b cnt : Byte) (caps : Bool) :
    (if capsBit b && !caps then satInc8 cnt else cnt) =
      if b.getLsbD 1 = true ∧ caps = false then BitVec.ofNat 8 (min 255 (cnt.toNat + 1)) else cnt := by
  simp only [capsBit, satInc8_eq, Bool.and_eq_true, Bool.not_eq_true']

/-- Settles O21: halted by `exec_of_halted`, a repeat by `State.onHostReport_duplicate`, a new byte by
`State.onHostReport_new` with the count put on numbers. -/
theorem hostLedUpdatesTheLedController : Obligations.HostLedUpdatesTheLedController := by
  intro b s
  refine ⟨fun halted => exec_of_halted halted _, fun running repeated => ?_, fun running new => ?_⟩
  · subst repeated
    rw [exec_hostLed running]
    exact congrArg Host.Outcome.next s.quiet.onHostReport_duplicate
  · have hnew : b ≠ s.quiet.ledState := new
    rw [exec_hostLed running, State.onHostReport_new hnew, toggleCnt_after_byte]
    rfl

end Sys2Proof.Machine
end

section
/-! The key sequencer (44_sequencer.md R172, R175, R176): the two steps that wait for the button, and which steps emit. -/

namespace Sys2Proof.Machine

/-- R172: in Idle the sequencer's step is StepIdle. -/
theorem State.stepSequencer_of_idle {s : State} (h : s.seq = .idle) (btn : Bool) :
    s.stepSequencer btn = .next (s.stepIdle (pressed btn)) := by
  simp [State.stepSequencer, h]

/-- R175: in AwaitButtonRelease the sequencer's step is StepAwait. -/
theorem State.stepSequencer_of_await {s : State} (h : s.seq = .awaitButtonRelease) (btn : Bool) :
    s.stepSequencer btn = .next (s.stepAwait (pressed btn)) := by
  simp [State.stepSequencer, h]

/-- R176: the steps that write the report emit it as written; the other two leave IN_EMIT as the tick set it before. -/
theorem State.stepSequencer_inEmit {s t : State} {btn : Bool} (h : s.stepSequencer btn = .next t) :
    t.inEmit = if s.seq = .characterPending ∨ s.seq = .releasePending then some t.readRpt else s.inEmit := by
  rcases State.stepSequencer_cases h with ⟨hs, -, rfl⟩ | ⟨hs, -, rfl⟩ | ⟨hs, c, -, rfl⟩ | ⟨hs, -, rfl⟩ | ⟨hs, -, rfl⟩ |
    ⟨hs, -, rfl⟩ | ⟨hs, -, rfl⟩ <;> simp only [hs] <;> rfl

/-- R170, R176: a TICK emits exactly when it gets as far as a step that writes the report. -/
theorem execTick_inEmit {s t : State} {rdy btn : Bool} (h : execTick rdy btn s = .next t) :
    t.inEmit = if rdy = true ∧ s.halted = false ∧ s.trip = false ∧
      (s.seq = .characterPending ∨ s.seq = .releasePending) then some t.readRpt else none := by
  rcases execTick_cases h with ⟨hh, rfl⟩ | ⟨-, ht, rfl⟩ | ⟨-, -, hr, rfl⟩ | ⟨hh, ht, hr, hs⟩
  · simp [hh]
  · simp [ht]
  · simp [hr]
  · rw [State.stepSequencer_inEmit hs]
    exact if_congr (by simp [hh, ht, hr]) rfl rfl

/-- R176: no command but TICK emits. -/
theorem exec_other_inEmit {i : Instr} {s t : State} (h : exec i s = .next t) (hi : ∀ rdy btn, i ≠ .tick rdy btn) :
    t.inEmit = none := by
  obtain ⟨led, cnt, caps, idle, resp, rfl, -⟩ := exec_other_cases h hi
  rfl

/-- Settles O35: a TICK emits as `execTick_inEmit` says, and no other command does. -/
theorem emissionsAreCharAndReleaseSteps : Obligations.EmissionsAreCharAndReleaseSteps := by
  intro i s t h
  rcases Instr.tick_or_other i with ⟨rdy, btn, rfl⟩ | hi
  · have emits := execTick_inEmit h
    simp only [State.trip_eq_false_iff] at emits
    split at emits
    next hc => simp [emits, hc, State.readRpt, State.rptRsv]
    next hc => simpa [emits] using hc
  · simp [exec_other_inEmit h hi, hi]

/-- Settles O31: the ready TICK of a running block is its sequencer step, here StepIdle on either level. -/
theorem idleStep : Obligations.IdleStep := by
  intro s running below idle
  have tick (btn : Bool) : exec (.tick true btn) s = .next (s.quiet.service.stepIdle (pressed btn)) := by
    rw [exec_tick_ready running (s.trip_eq_false_iff.mpr below), State.stepSequencer_of_idle (s := s.quiet.service) idle]
  exact ⟨tick false, tick true⟩

/-- Settles O34: the ready TICK of a running block is its sequencer step, here StepAwait on either level. -/
theorem awaitStep : Obligations.AwaitStep := by
  intro s running below await
  have tick (btn : Bool) : exec (.tick true btn) s = .next (s.quiet.service.stepAwait (pressed btn)) := by
    rw [exec_tick_ready running (s.trip_eq_false_iff.mpr below), State.stepSequencer_of_await (s := s.quiet.service) await]
  exact ⟨tick true, tick false⟩

end Sys2Proof.Machine
end

section
/-! The control requests that carry a byte (45_control_requests.md R201, R203, R204): what each does with it. -/

namespace Sys2Proof.Machine

/-- Settles O46: halted by `exec_of_halted`. Running, a length other than 1 is `exec_setReport_other`; at length 1 the
byte is a host LED byte, a repeat of the stored one by `State.onHostReport_duplicate` or a new one by
`State.onHostReport_new` with the count put on numbers. -/
theorem setReportDeliversOneByte : Obligations.SetReportDeliversOneByte := by
  intro len b s
  refine ⟨fun halted => exec_of_halted halted _, fun running ignored => ?_, fun running one new => ?_⟩
  · by_cases one : len = 1
    · have repeated : b = s.quiet.ledState := ignored.resolve_left (not_not_intro one)
      rw [one, exec_setReport_one running, repeated, State.onHostReport_duplicate]
      rfl
    · exact exec_setReport_other running one b
  · have hnew : b ≠ s.quiet.ledState := new
    rw [one, exec_setReport_one running, State.onHostReport_new hnew, toggleCnt_after_byte]
    rfl

/-- Settles O48: halted by `exec_of_halted`, running by `exec_setIdle`. -/
theorem setIdleStoresTheByte : Obligations.SetIdleStoresTheByte :=
  fun b _ => ⟨fun halted => exec_of_halted halted _, fun running => exec_setIdle running b⟩

/-- Settles O49: halted by `exec_of_halted`, running by `exec_ctrlOther`, whatever the code. -/
theorem unsupportedRequestsChangeNothing : Obligations.UnsupportedRequestsChangeNothing :=
  fun req _ => ⟨fun halted => exec_of_halted halted _, fun running => exec_ctrlOther running req⟩

end Sys2Proof.Machine
end

section
/-! The halt (60_exceptions.md R223 to R225): where a TICK enters it, and what a halted block does. -/

namespace Sys2Proof.Machine

/-- Settles O29: a count of 5 or more is TRIP (`State.trip_iff`), and a TICK at TRIP answers the quiet state with HALTED
set (`exec_tick_trip`). -/
theorem tripHaltsTheBlock : Obligations.TripHaltsTheBlock :=
  fun rdy btn s running reached => exec_tick_trip running (s.trip_iff.mpr reached) rdy btn

/-- Settles O53: every command starts with the halted gate, said once in `exec_of_halted`. -/
theorem haltedCommandsHaveNoEffect : Obligations.HaltedCommandsHaveNoEffect :=
  fun i _ halted => exec_of_halted halted i

end Sys2Proof.Machine
end

section
/-! Words and commands (30_encoding.md): the encoder and the decoder undo each other, what a field is as a number, and the
words that script lines stand for. -/

namespace Sys2Proof
open Machine

/-- Settles O1: the fields the encoder lays out (`encode_eq_wordOf`) are those the decoder reads (`decode_wordOf`); LEN
comes back because a well-formed one fits its four bits. -/
theorem decodeOfEncode : Obligations.DecodeOfEncode := by
  intro i wf
  rw [encode_eq_wordOf]
  cases i with
  | tick rdy btn => cases rdy <;> cases btn <;> rfl
  | setReport len b =>
    have fits : len ≤ 15 := of_decide_eq_true wf
    simp [decode_wordOf, Nat.mod_eq_of_lt (Nat.lt_succ_of_le fits)]
  | _ => simp [decode_wordOf]

/-- A byte whose upper six bits are 0 is made of its lower two. -/
theorem byte_eq_of_low_bits :
    ∀ b : Byte, b &&& 0xFC#8 = 0#8 → BitVec.ofNat 8 ((b.getLsbD 1).toNat * 2 + (b.getLsbD 0).toNat) = b := by
  decide

theorem encode_of_decode_wordOf {op n : BitVec 4} {b : Byte} {i : Instr} (h : decode (wordOf op n b) = .ok i) :
    i.wf = true ∧ encode i = wordOf op n b := by
  rw [decode_wordOf] at h
  split_ifs at h with hTick hLed hRpt hGet hGetIdle hSetIdle hCtrl <;> cases h <;> rw [encode_eq_wordOf]
  · obtain ⟨rfl, rfl, low⟩ := hTick
    exact ⟨rfl, congrArg (wordOf 0#4 0#4) (byte_eq_of_low_bits b low)⟩
  · obtain ⟨rfl, rfl⟩ := hLed
    exact ⟨rfl, rfl⟩
  · subst hRpt
    exact ⟨decide_eq_true (Nat.le_of_lt_succ n.isLt), by simp⟩
  · obtain ⟨rfl, rfl, rfl⟩ := hGet
    exact ⟨rfl, rfl⟩
  · obtain ⟨rfl, rfl, rfl⟩ := hGetIdle
    exact ⟨rfl, rfl⟩
  · obtain ⟨rfl, rfl⟩ := hSetIdle
    exact ⟨rfl, rfl⟩
  · obtain ⟨rfl, rfl⟩ := hCtrl
    exact ⟨rfl, rfl⟩

/-- Settles O2: every word is laid out from its fields (`wordOf_fields`), and each row of `decode_wordOf` fixes the fields
that its command's word has. -/
theorem encodeOfDecode : Obligations.EncodeOfDecode := by
  intro w i h
  rw [← wordOf_fields w] at h ⊢
  exact encode_of_decode_wordOf h

/-! ## The fields as numbers -/

theorem opOf_toNat (w : Word) : (opOf w).toNat = w.toNat / 4096 := by
  have := w.isLt
  rw [opOf, BitVec.extractLsb'_toNat, Nat.shiftRight_eq_div_pow]
  omega

theorem nibbleOf_toNat (w : Word) : (nibbleOf w).toNat = w.toNat / 256 % 16 := by
  rw [nibbleOf, BitVec.extractLsb'_toNat, Nat.shiftRight_eq_div_pow]

theorem byteOf_toNat (w : Word) : (byteOf w).toNat = w.toNat % 256 := by
  rw [byteOf, BitVec.extractLsb'_toNat, Nat.shiftRight_zero]

/-- Settles O4: a word that decodes is its command's word (O2), and `encode_eq_wordOf` says in which field of it each
operand stands. -/
theorem operandsAreTheirFields : Obligations.OperandsAreTheirFields := by
  intro w
  refine ⟨fun r b h => ?_, fun b h => ?_, fun n b h => ?_, fun b h => ?_, fun q h => ?_⟩ <;>
    obtain ⟨wf, rfl⟩ := encodeOfDecode w _ h
  · cases r <;> cases b <;> decide
  · rw [encode_eq_wordOf, ← byteOf_toNat, byteOf_wordOf]
  · have fits : n < 2 ^ 4 := Nat.lt_succ_of_le (of_decide_eq_true wf)
    rw [encode_eq_wordOf, ← nibbleOf_toNat, ← byteOf_toNat, nibbleOf_wordOf, byteOf_wordOf]
    exact ⟨by rw [BitVec.toNat_ofNat, Nat.mod_eq_of_lt fits], rfl⟩
  · rw [encode_eq_wordOf, ← byteOf_toNat, byteOf_wordOf]
  · rw [encode_eq_wordOf, ← byteOf_toNat, byteOf_wordOf]

/-- Settles O6: the decoder evaluated on ten words. -/
theorem sampleWordsDecode : Obligations.SampleWordsDecode :=
  ⟨rfl, rfl, rfl, rfl, rfl, rfl, rfl, rfl, rfl, rfl⟩

/-! ## Illegal words -/

theorem low_bits_iff : ∀ b : Byte, b &&& 0xFC#8 = 0#8 ↔ b.toNat < 4 := by decide

theorem step_of_illegal {s : State} {w : Word} {rest : List Input} {why : IllegalWord}
    (hs : s.inputs = ⟨false, w⟩ :: rest)
    (hd : decode w = .error why) : step s = .refused (.illegalWord why) := by
  simp [step, hs, hd]

/-- The decoder, on the numbers of a word's fields. -/
theorem decode_toNat (w : Word) :
    decode w =
      if w.toNat / 4096 = 0 ∧ w.toNat / 256 % 16 = 0 ∧ w.toNat % 256 < 4 then
        .ok (.tick ((byteOf w).getLsbD 1) ((byteOf w).getLsbD 0))
      else if w.toNat / 4096 = 1 ∧ w.toNat / 256 % 16 = 0 then .ok (.hostLed (byteOf w))
      else if w.toNat / 4096 = 2 then .ok (.setReport (w.toNat / 256 % 16) (byteOf w))
      else if w.toNat / 4096 = 3 ∧ w.toNat / 256 % 16 = 0 ∧ w.toNat % 256 = 0 then .ok .getReport
      else if w.toNat / 4096 = 4 ∧ w.toNat / 256 % 16 = 0 ∧ w.toNat % 256 = 0 then .ok .getIdle
      else if w.toNat / 4096 = 5 ∧ w.toNat / 256 % 16 = 0 then .ok (.setIdle (byteOf w))
      else if w.toNat / 4096 = 6 ∧ w.toNat / 256 % 16 = 0 then .ok (.ctrlOther (byteOf w))
      else .error (if 7 ≤ w.toNat / 4096 then .reservedOpcode else .reservedBits) := by
  have rows := decode_wordOf (opOf w) (nibbleOf w) (byteOf w)
  simp only [low_bits_iff] at rows
  simpa only [wordOf_fields, BitVec.le_def, ← BitVec.toNat_inj, opOf_toNat, nibbleOf_toNat, byteOf_toNat,
    BitVec.toNat_ofNat, Nat.reducePow, Nat.reduceMod] using rows

/-- The words that fail every row's test, and the reason the decoder gives (R95, R96). -/
theorem decode_error_of_reserved {w : Word} (tick : w.toNat / 4096 = 0 → w.toNat / 4 % 1024 ≠ 0)
    (byteCommand : w.toNat / 4096 = 1 ∨ w.toNat / 4096 = 5 ∨ w.toNat / 4096 = 6 → w.toNat / 256 % 16 ≠ 0)
    (setReport : w.toNat / 4096 ≠ 2) (get : w.toNat / 4096 = 3 ∨ w.toNat / 4096 = 4 → w.toNat % 4096 ≠ 0) :
    decode w = .error (if 7 ≤ w.toNat / 4096 then .reservedOpcode else .reservedBits) := by
  rw [decode_toNat, if_neg, if_neg, if_neg, if_neg, if_neg, if_neg, if_neg] <;> omega

/-- Settles O5: each class of words is one of `decode_error_of_reserved`, and a step refuses it by that reason; opcode 2
is a row with no reserved bit. -/
theorem reservedWordsAreRefused : Obligations.ReservedWordsAreRefused := by
  intro s w rest hs
  refine ⟨fun op7 => step_of_illegal hs ?_, fun op0 bits => step_of_illegal hs ?_,
    fun op156 bits => step_of_illegal hs ?_, fun op34 bits => step_of_illegal hs ?_, fun op2 => ?_⟩
  · rw [decode_error_of_reserved, if_pos] <;> omega
  · rw [decode_error_of_reserved, if_neg] <;> omega
  · rw [decode_error_of_reserved, if_neg] <;> omega
  · rw [decode_error_of_reserved, if_neg] <;> omega
  · rw [decode_toNat, if_neg, if_neg, if_pos op2]
    · exact ⟨_, _, rfl⟩
    all_goals omega

/-! ## Script lines -/

/-- A line with a byte operand stands for the word of its fields (R100). -/
theorem inField_eq_wordOf {op n b : Nat} (hop : op < 2 ^ 4) (hn : n < 2 ^ 4) (hb : b < 2 ^ 8) :
    inField b 256 (op <<< 12 ||| n <<< 8 ||| b) =
      some (Input.command (wordOf (BitVec.ofNat 4 op) (BitVec.ofNat 4 n) (BitVec.ofNat 8 b))) := by
  have spelled : op <<< 12 ||| n <<< 8 ||| b =
      (wordOf (BitVec.ofNat 4 op) (BitVec.ofNat 4 n) (BitVec.ofNat 8 b)).toNat := by
    simp only [wordOf, BitVec.toNat_append, BitVec.toNat_ofNat, Nat.mod_eq_of_lt, hop, hn, hb,
      Nat.shiftLeft_or_distrib, ← Nat.shiftLeft_add]
  rw [inField, if_pos (show b < 256 from hb), spelled, BitVec.ofNat_toNat, BitVec.setWidth_eq]

/-- Settles O7: a line without a byte operand is evaluated; one with a byte stands for the word of its fields, which is
what `encode_eq_wordOf` says of its command. -/
theorem scriptLinesStandForWords : Obligations.ScriptLinesStandForWords := by
  refine ⟨fun r b => ?_, fun n b hb => ?_, rfl, rfl, rfl, rfl, rfl, rfl, rfl⟩
  · cases r <;> cases b <;> rfl
  · have noLength (op : Nat) (hop : op < 2 ^ 4) := inField_eq_wordOf hop (n := 0) (by decide) hb
    exact ⟨noLength 1 (by decide), inField_eq_wordOf (op := 2) (by decide) (by omega) hb, noLength 5 (by decide),
      noLength 6 (by decide), inField_eq_wordOf (op := 2) (n := 1) (by decide) (by decide) hb⟩

end Sys2Proof
end

section
/-! The sequencer's steps as equations (44_sequencer.md R173, R174): what a step answers where MSG can be read, and what a
read in the message finds. -/

namespace Sys2Proof.Machine

/-! ## MSG at the cursor -/

/-- R12, R71: every index up to L can be read. -/
theorem Memory.read_of_le {r : Memory} (h : r.wf = true) {i : Nat} (hi : i ≤ r.len) : ∃ c, r.read i = some c :=
  Option.ne_none_iff_exists'.mp fun hnone => absurd ((r.read_eq_none_iff h i).mp hnone) (not_lt.mpr hi)

section
variable {s : State} (rom : RomInv s) (cursor : CursorInv s)
include rom cursor

theorem CursorInv.reads : ∃ c, s.msg.read s.cursor = some c :=
  Memory.read_of_le rom (by have := cursor.2; omega)

/-- R173, R174: the cursor finds the terminator only in the empty message. -/
theorem CursorInv.len_eq_zero (h : s.msg.read s.cursor = some 0x00#8) : s.msg.len = 0 := by
  have atEnd := (Memory.read_eq_zero_iff s.msg rom s.cursor).mp h
  have := cursor.2
  omega

/-- R174: after a character the next index can be read, and is in the message unless it is the terminator. -/
theorem CursorInv.reads_next {c : Byte} (hc : s.msg.read s.cursor = some c) (hne : c ≠ 0x00#8) :
    ∃ d, s.msg.read (s.cursor + 1) = some d ∧ (d ≠ 0x00#8 → s.cursor + 1 < s.msg.len) := by
  have notEnd : s.cursor ≠ s.msg.len := fun atEnd =>
    hne (Option.some.inj (hc.symm.trans ((Memory.read_eq_zero_iff s.msg rom s.cursor).mpr atEnd)))
  have inside : s.cursor + 1 ≤ s.msg.len := by
    have := cursor.2
    omega
  obtain ⟨d, hd⟩ := Memory.read_of_le rom inside
  refine ⟨d, hd, fun hdne => lt_of_le_of_ne inside fun atEnd => hdne ?_⟩
  exact Option.some.inj (hd.symm.trans ((Memory.read_eq_zero_iff s.msg rom _).mpr atEnd))

end

/-! ## The steps that read MSG -/

section
variable {s : State} (btn : Bool)

theorem State.stepSequencer_of_character {c : Byte} (hs : s.seq = .characterPending)
    (hc : s.msg.read s.cursor = some c) :
    s.stepSequencer btn = .next
      { ({ s with curChar := c }.setKey (mapKey c s.capsOn).key (mapKey c s.capsOn).mod).emit with
        seq := .releasePending } := by
  simp only [State.stepSequencer, hs, State.stepChar, withMsg_of_read hc]

theorem State.stepSequencer_of_end {c : Byte} (hs : s.seq = .releasePending) (hc : s.msg.read s.cursor = some c)
    (hend : c = 0x00#8 ∨ s.msg.read (s.cursor + 1) = some 0x00#8) :
    s.stepSequencer btn = .next s.release.emit.endOfMessage := by
  simp only [State.stepSequencer, hs, State.stepRelease, withMsg_of_read hc]
  split
  · rfl
  · rw [withMsg_of_read (hend.resolve_left ‹_›), if_pos rfl]

theorem State.stepSequencer_of_more {c d : Byte} (hs : s.seq = .releasePending) (hc : s.msg.read s.cursor = some c)
    (hne : c ≠ 0x00#8) (hd : s.msg.read (s.cursor + 1) = some d) (hdne : d ≠ 0x00#8) :
    s.stepSequencer btn = .next s.release.emit.advance := by
  simp only [State.stepSequencer, hs, State.stepRelease, withMsg_of_read hc, withMsg_of_read hd, if_neg hne, if_neg hdne]

/-- R21: both steps begin with a read at the cursor. -/
theorem State.stepSequencer_of_beyond (hs : s.seq = .characterPending ∨ s.seq = .releasePending)
    (hc : s.msg.read s.cursor = none) : s.stepSequencer btn = .fault (.msgOutOfRange s.cursor) := by
  rcases hs with hs | hs
  · simp only [State.stepSequencer, hs, State.stepChar, withMsg_of_beyond hc]
  · simp only [State.stepSequencer, hs, State.stepRelease, withMsg_of_beyond hc]

/-- Over a programmed ROM and with the cursor in the message, the sequencer's step goes on. -/
theorem State.stepSequencer_completes (rom : RomInv s) (cursor : CursorInv s) : ∃ t, s.stepSequencer btn = .next t := by
  obtain ⟨c, hc⟩ := CursorInv.reads rom cursor
  cases hs : s.seq with
  | idle => exact ⟨_, State.stepSequencer_of_idle hs btn⟩
  | characterPending => exact ⟨_, State.stepSequencer_of_character btn hs hc⟩
  | releasePending =>
    by_cases terminator : c = 0x00#8
    · exact ⟨_, State.stepSequencer_of_end btn hs hc (.inl terminator)⟩
    · obtain ⟨d, hd, -⟩ := CursorInv.reads_next rom cursor hc terminator
      by_cases last : d = 0x00#8
      · exact ⟨_, State.stepSequencer_of_end btn hs hc (.inr (last ▸ hd))⟩
      · exact ⟨_, State.stepSequencer_of_more btn hs hc terminator hd last⟩
  | awaitButtonRelease => exact ⟨_, State.stepSequencer_of_await hs btn⟩

/-- No step of the sequencer writes the stored LED byte, CAPS_ON, IDLE_RATE or HALTED (R48). -/
theorem State.stepSequencer_frame {t : State} {btn : Bool} (h : s.stepSequencer btn = .next t) :
    t.ledState = s.ledState ∧ t.capsOn = s.capsOn ∧ t.idleRate = s.idleRate ∧ t.halted = s.halted := by
  rcases State.stepSequencer_cases h with ⟨-, -, rfl⟩ | ⟨-, -, rfl⟩ | ⟨-, c, -, rfl⟩ | ⟨-, -, rfl⟩ | ⟨-, -, rfl⟩ |
    ⟨-, -, rfl⟩ | ⟨-, -, rfl⟩ <;> exact ⟨rfl, rfl, rfl, rfl⟩

end

/-! ## The report of a release -/

/-- R10: a report has a first slot, so all slots clear is a first slot clear and the rest clear. -/
theorem SlotCount.replicate_toNat (n : SlotCount) (b : Byte) :
    List.replicate n.toNat b = b :: List.replicate (n.toNat - 1) b := by
  cases n <;> rfl

theorem State.release_holds (s : State) : s.release.holds KeyPair.neutral := s.setKey_holds KeyPair.neutral

@[simp] theorem State.release_readRpt (s : State) : s.release.readRpt = zeroReport s.build :=
  (State.readRpt_of_holds s.release_holds).trans (report_neutral s.build)

/-- R141: a release frame, field by field. -/
theorem State.release_emit (s : State) :
    s.release.emit = { s with
      rptMod := 0x00#8, rptKey := List.replicate s.build.nKeys.toNat 0x00#8, inEmit := some (zeroReport s.build) } := by
  rw [State.emit, State.release_readRpt, SlotCount.replicate_toNat]
  rfl

/-- R122: a character with no key maps to the neutral pair. -/
theorem mapKey_eq_neutral {c : Byte} {caps : Bool} (h : (mapKey c caps).key = 0x00#8) : mapKey c caps = KeyPair.neutral := by
  show KeyPair.mk (mapKey c caps).mod (mapKey c caps).key = KeyPair.neutral
  rw [h, mapKey_zero_mod c caps h]
  rfl

/-- R119: the terminator has no key. -/
theorem mapKey_terminator (caps : Bool) : mapKey 0x00#8 caps = KeyPair.neutral := by
  cases caps <;> rfl

/-! ## The statements of one tick -/

/-- Settles O30: `exec_tick_notReady`. -/
theorem notReadyTickOnlyServices : Obligations.NotReadyTickOnlyServices :=
  fun btn s running below => exec_tick_notReady running (s.trip_eq_false_iff.mpr below) btn

/-- Settles O32: the ready TICK is StepChar; the cursor finds the terminator in the empty message only, and with no key
the report is the neutral one. -/
theorem characterStep : Obligations.CharacterStep := by
  intro btn c s running below hs hc
  refine ⟨?_, fun rom cursor terminator => CursorInv.len_eq_zero rom cursor (terminator ▸ hc), fun noKey => ?_⟩
  · rw [exec_tick_ready running (s.trip_eq_false_iff.mpr below)]
    exact State.stepSequencer_of_character (s := s.quiet.service) btn hs hc
  · have neutral : mapKey c s.capsOn = KeyPair.neutral :=
      noKey.elim mapKey_eq_neutral fun terminator => terminator ▸ mapKey_terminator s.capsOn
    exact (congrArg (report s.build) neutral).trans (report_neutral s.build)

/-- Settles O33: the ready TICK is StepRelease, whose frame is `State.release_emit`; what it reads is said by
`CursorInv.len_eq_zero` and `CursorInv.reads_next`. -/
theorem releaseStep : Obligations.ReleaseStep := by
  intro btn c s running below hs hc
  rw [exec_tick_ready running (s.trip_eq_false_iff.mpr below)]
  refine ⟨fun atEnd => ?_, fun d hne hd hdne => ?_, fun rom cursor =>
    ⟨fun terminator => CursorInv.len_eq_zero rom cursor (terminator ▸ hc), CursorInv.reads_next rom cursor hc⟩⟩
  · rw [State.stepSequencer_of_end (s := s.quiet.service) btn hs hc atEnd, State.release_emit]
    rfl
  · rw [State.stepSequencer_of_more (s := s.quiet.service) btn hs hc hne hd hdne, State.release_emit]
    rfl

/-- Settles O43: beyond L nothing can be read, and both steps begin with that read. -/
theorem readBeyondTheMessageFaults : Obligations.ReadBeyondTheMessageFaults := by
  intro btn s rom running below hs beyond
  rw [exec_tick_ready running (s.trip_eq_false_iff.mpr below)]
  exact State.stepSequencer_of_beyond (s := s.quiet.service) btn hs ((s.msg.read_eq_none_iff rom _).mpr beyond)

end Sys2Proof.Machine
end

section
/-! The invariant of the block (42_report_buffer.md R143, 44_sequencer.md R179, 41_mapper.md R111, 60_exceptions.md R222):
what makes a property of the registers last over every step, said once, and then each part of the invariant. -/

namespace Sys2Proof.Machine

/-! ## The same block -/

theorem SameBlock.take (s : State) (rest : List Input) : SameBlock s (s.take rest) :=
  ⟨rfl, rfl, rfl, rfl, rfl, rfl, rfl, rfl, rfl, rfl, rfl, rfl⟩

theorem SameBlock.record (s : State) : SameBlock s s.record :=
  ⟨rfl, rfl, rfl, rfl, rfl, rfl, rfl, rfl, rfl, rfl, rfl, rfl⟩

theorem SameBlock.service (s : State) : SameBlock s s.quiet.service :=
  ⟨rfl, rfl, rfl, rfl, rfl, rfl, rfl, rfl, rfl, rfl, rfl, rfl⟩

/-! ## Properties that every step keeps -/

/-- A property of the registers that RESET, the safety trip, the sequencer's steps and the commands other than TICK
keep. -/
structure Kept (P : State → Prop) : Prop where
  ports : ∀ {s t}, SameBlock s t → P s → P t
  reset : ∀ {s}, P s → P s.applyReset
  trip : ∀ {s}, s.trip = true → P s → P s.raiseSafetyTrip
  sequencer : ∀ {s t btn}, s.halted = false → s.stepSequencer btn = .next t → P s → P t
  other : ∀ {i s t}, exec i s = .next t → (∀ rdy btn, i ≠ .tick rdy btn) → P s → P t

theorem Kept.exec {P : State → Prop} (kept : Kept P) {i : Instr} {s t : State} (h : exec i s = .next t) (hs : P s) :
    P t := by
  rcases Instr.tick_or_other i with ⟨rdy, btn, rfl⟩ | hi
  · rcases execTick_cases h with ⟨-, rfl⟩ | ⟨-, ht, rfl⟩ | ⟨-, -, -, rfl⟩ | ⟨hh, -, -, hseq⟩
    · exact kept.ports (.quiet s) hs
    · exact kept.trip ht (kept.ports (.quiet s) hs)
    · exact kept.ports (.service s) hs
    · exact kept.sequencer (s := s.quiet.service) hh hseq (kept.ports (.service s) hs)
  · exact kept.other h hi hs

theorem Kept.step {P : State → Prop} (kept : Kept P) {s t : State} (h : step s = .next t) (hs : P s) : P t := by
  rcases step_cases h with ⟨-, rfl⟩ | ⟨inp, rest, -, -, rfl⟩ | ⟨inp, rest, i, u, -, -, -, he, rfl⟩
  · exact kept.ports (.quiet s) hs
  · exact kept.ports (.record _) (kept.reset (kept.ports (.take s rest) hs))
  · exact kept.ports (.record u) (kept.exec he (kept.ports (.take s rest) hs))

/-! ## What the commands other than TICK leave alone -/

/-- What the sequencer, the report, the halt and the ROM hold is the same after every command but TICK (R205). -/
theorem exec_other_frame {i : Instr} {s t : State} (h : exec i s = .next t) (hi : ∀ rdy btn, i ≠ .tick rdy btn) :
    ∃ led cnt caps idle resp, t = { s with
      ledState := led, toggleCnt := cnt, capsOn := caps, idleRate := idle
      inEmit := none, wdtService := false, ctrlResp := resp } := by
  obtain ⟨led, cnt, caps, idle, resp, ht, -⟩ := exec_other_cases h hi
  exact ⟨led, cnt, caps, idle, resp, ht⟩

/-- What a command other than TICK does to the LED registers: nothing, or what a new host byte does in a running
block. -/
theorem exec_other_led {i : Instr} {s t : State} (h : exec i s = .next t) (hi : ∀ rdy btn, i ≠ .tick rdy btn) :
    t.ledState = s.ledState ∧ t.capsOn = s.capsOn ∧ t.toggleCnt = s.toggleCnt ∨
      s.halted = false ∧ ∃ d, i = ledCommand d ∧ t.ledState = d.2 ∧ t.capsOn = capsBit d.2 := by
  by_cases isLed : ∃ d, i = ledCommand d
  · obtain ⟨d, rfl⟩ := isLed
    rcases Bool.eq_false_or_eq_true s.halted with halted | running
    · rw [exec_of_halted halted] at h
      cases h
      exact .inl ⟨rfl, rfl, rfl⟩
    · obtain ⟨resp, e⟩ := exec_ledCommand running d
      rw [e] at h
      cases h
      by_cases repeated : d.2 = s.quiet.ledState
      · rw [repeated, State.onHostReport_duplicate]
        exact .inl ⟨rfl, rfl, rfl⟩
      · rw [State.onHostReport_new repeated]
        exact .inr ⟨running, d, rfl, rfl, rfl⟩
  · obtain ⟨led, cnt, caps, idle, resp, rfl, others, -⟩ := exec_other_cases h hi
    obtain ⟨rfl, rfl, rfl⟩ :=
      others (fun b hb => isLed ⟨(.interruptOut, b), hb⟩) (fun b hb => isLed ⟨(.control, b), hb⟩)
    exact .inl ⟨rfl, rfl, rfl⟩

/-! ## The report -/

theorem State.reportInv_of_holds {s : State} {p : KeyPair} (h : s.holds p) (hp : p.key = 0x00#8 → p.mod = 0x00#8) :
    ReportInv s :=
  ⟨p.key, h.2, fun hk => h.1.trans (hp hk)⟩

theorem State.applyReset_holds (s : State) : s.applyReset.holds KeyPair.neutral :=
  ⟨rfl, SlotCount.replicate_toNat s.build.nKeys 0x00#8⟩

theorem SameBlock.holds_iff {s t : State} (h : SameBlock s t) (p : KeyPair) : t.holds p ↔ s.holds p := by
  rw [State.holds, State.holds, h.rptMod, h.rptKey, h.build]

theorem reportInv_kept : Kept ReportInv where
  ports h hs := by
    rw [ReportInv, h.rptKey, h.build, h.rptMod]
    exact hs
  reset _ := State.reportInv_of_holds (State.applyReset_holds _) fun _ => rfl
  trip _ hs := hs
  sequencer := by
    intro s t btn _ h hs
    rcases State.stepSequencer_cases h with ⟨-, -, rfl⟩ | ⟨-, -, rfl⟩ | ⟨-, c, -, rfl⟩ | ⟨-, -, rfl⟩ | ⟨-, -, rfl⟩ |
      ⟨-, -, rfl⟩ | ⟨-, -, rfl⟩
    · exact hs
    · exact hs
    · exact State.reportInv_of_holds (State.setKey_holds { s with curChar := c } (mapKey c s.capsOn))
        (mapKey_zero_mod c s.capsOn)
    · exact State.reportInv_of_holds s.release_holds fun _ => rfl
    · exact State.reportInv_of_holds s.release_holds fun _ => rfl
    · exact hs
    · exact hs
  other h hi hs := by
    obtain ⟨led, cnt, caps, idle, resp, rfl⟩ := exec_other_frame h hi
    exact hs

/-! ## The cursor -/

theorem cursorInv_of_zero {s : State} (h : s.cursor = 0) : CursorInv s :=
  ⟨fun _ => h, s.msg.len.eq_zero_or_pos.symm.imp (fun pos => by rwa [h]) (fun empty => ⟨h, empty⟩)⟩

theorem cursorInv_kept : Kept fun s => RomInv s ∧ CursorInv s where
  ports h hs := by
    rw [RomInv, CursorInv, h.msg, h.seq, h.cursor]
    exact hs
  reset hs := ⟨hs.1, cursorInv_of_zero rfl⟩
  trip _ hs := hs
  sequencer := by
    rintro s t btn - h ⟨rom, rests, within⟩
    rcases State.stepSequencer_cases h with ⟨-, -, rfl⟩ | ⟨-, -, rfl⟩ | ⟨-, c, -, rfl⟩ | ⟨-, -, rfl⟩ |
      ⟨-, ⟨c, d, hc, hne, hd, hdne⟩, rfl⟩ | ⟨await, -, rfl⟩ | ⟨-, -, rfl⟩
    · exact ⟨rom, nofun, within⟩
    · exact ⟨rom, rests, within⟩
    · exact ⟨rom, nofun, within⟩
    · exact ⟨rom, cursorInv_of_zero rfl⟩
    · obtain ⟨d', hd', inside⟩ := CursorInv.reads_next rom ⟨rests, within⟩ hc hne
      cases hd.symm.trans hd'
      exact ⟨rom, nofun, .inl (inside hdne)⟩
    · exact ⟨rom, fun _ => rests (.inr await), within⟩
    · exact ⟨rom, rests, within⟩
  other h hi hs := by
    obtain ⟨led, cnt, caps, idle, resp, rfl⟩ := exec_other_frame h hi
    exact hs

/-! ## The LED controller -/

theorem ledInv_kept : Kept LedInv where
  ports h hs := by
    rw [LedInv, h.capsOn, h.ledState]
    exact hs
  reset _ := .inr ⟨rfl, rfl⟩
  trip _ hs := hs
  sequencer := by
    intro s t btn _ h hs
    obtain ⟨led, caps, -, -⟩ := State.stepSequencer_frame h
    rw [LedInv, led, caps]
    exact hs
  other h hi hs := by
    rcases exec_other_led h hi with ⟨led, caps, -⟩ | ⟨-, d, -, led, caps⟩
    · rw [LedInv, led, caps]
      exact hs
    · exact .inl (by rw [led, caps])

/-! ## The halt -/

theorem haltInv_kept : Kept HaltInv where
  ports h hs := by
    rw [HaltInv, State.trip, h.halted, h.toggleCnt]
    exact hs
  reset _ := nofun
  trip ht _ := fun _ => ht
  sequencer := by
    intro s t btn running h _
    obtain ⟨-, -, -, halted⟩ := State.stepSequencer_frame h
    simp [HaltInv, halted, running]
  other := by
    intro i s t h hi hs
    obtain ⟨led, cnt, caps, idle, resp, rfl, -, -, -, -, frozen, -⟩ := exec_other_cases h hi
    intro halted
    obtain ⟨-, rfl, -, -⟩ := frozen halted
    exact hs halted

/-! ## The key in flight -/

theorem stagedInv_kept : Kept StagedInv where
  ports h hs := by
    simp only [StagedInv, h.seq, h.msg, h.cursor, h.curChar, h.holds_iff]
    exact hs
  reset _ := ⟨nofun, fun _ => State.applyReset_holds _⟩
  trip _ hs := hs
  sequencer := by
    rintro s t btn - h ⟨held, free⟩
    rcases State.stepSequencer_cases h with ⟨idle, -, rfl⟩ | ⟨-, -, rfl⟩ | ⟨-, c, hc, rfl⟩ | ⟨-, -, rfl⟩ | ⟨-, -, rfl⟩ |
      ⟨await, -, rfl⟩ | ⟨-, -, rfl⟩
    · exact ⟨nofun, fun _ => free (by simp [idle])⟩
    · exact ⟨held, free⟩
    · exact ⟨fun _ => ⟨hc, s.capsOn, State.setKey_holds { s with curChar := c } (mapKey c s.capsOn)⟩,
        fun hne => absurd rfl hne⟩
    · exact ⟨nofun, fun _ => s.release_holds⟩
    · exact ⟨nofun, fun _ => s.release_holds⟩
    · exact ⟨nofun, fun _ => free (by simp [await])⟩
    · exact ⟨held, free⟩
  other h hi hs := by
    obtain ⟨led, cnt, caps, idle, resp, rfl⟩ := exec_other_frame h hi
    exact hs

/-! ## The whole invariant -/

/-- Settles O56: each part of the invariant is kept (`Kept.step`), the ROM with the cursor that reads it. -/
theorem everyStepKeepsTheInvariant : Obligations.EveryStepKeepsTheInvariant := by
  intro s t hs h
  obtain ⟨rom, cursor⟩ := cursorInv_kept.step h ⟨hs.rom, hs.cursor⟩
  exact ⟨rom, reportInv_kept.step h hs.report, cursor, ledInv_kept.step h hs.led, haltInv_kept.step h hs.halt,
    stagedInv_kept.step h hs.staged⟩

theorem State.boot_holds (b : Build) (m : List Byte) (inputs : List Input) :
    (State.boot b m inputs).holds KeyPair.neutral :=
  State.applyReset_holds (State.boot b m inputs)

theorem inv_boot (b : Build) {m : List Byte} (legal : messageWf m = true) (inputs : List Input) :
    Inv (State.boot b m inputs) where
  rom := Memory.rom_wf m legal
  report := State.reportInv_of_holds (State.boot_holds b m inputs) fun _ => rfl
  cursor := cursorInv_of_zero rfl
  led := .inr ⟨rfl, rfl⟩
  halt := nofun
  staged := ⟨nofun, fun _ => State.boot_holds b m inputs⟩

/-- Settles O57: `inv_boot`, and State.reset is a boot state whose message is legal. -/
theorem resetHasTheInvariant : Obligations.ResetHasTheInvariant :=
  ⟨fun b _ inputs legal => inv_boot b legal inputs, inv_boot Config.build config_message_wf []⟩

theorem Reachable.inv {s : State} (h : Reachable s) : Inv s := by
  induction h with
  | boot b m inputs legal => exact inv_boot b legal inputs
  | step _ next ih => exact everyStepKeepsTheInvariant _ _ ih next

/-! ## Its parts, as statements of their own -/

/-- Settles O20: the step lemma is `reportInv_kept`, and a reachable state has the whole invariant. -/
theorem reportStaysABootKeyboardReport : Obligations.ReportStaysABootKeyboardReport := by
  refine ⟨fun s t hs h => reportInv_kept.step h hs, fun s reachable => ?_⟩
  obtain ⟨k, slots, noModifier⟩ := reachable.inv.report
  exact ⟨s.rptMod, k, by rw [State.readRpt, slots, State.rptRsv], noModifier⟩

/-- Settles O25: `ledInv_kept` for the step. -/
theorem capsFollowsTheStoredByte : Obligations.CapsFollowsTheStoredByte :=
  fun _ _ hs h => ledInv_kept.step h hs

/-- Settles O38: `cursorInv_kept` for the step; a cursor up to L is below L + 1, which ceil(log2(L + 1)) bits hold. -/
theorem cursorStaysInTheMessage : Obligations.CursorStaysInTheMessage := by
  refine ⟨fun s t rom cursor h => (cursorInv_kept.step h ⟨rom, cursor⟩).2, fun s cursor => ?_⟩
  have within : s.cursor < s.msg.len + 1 := by
    have := cursor.2
    omega
  calc s.cursor < s.msg.len + 1 := within
    _ ≤ 2 ^ Nat.clog 2 (s.msg.len + 1) := Nat.le_pow_clog (by decide) _
    _ ≤ 2 ^ cursorWidth s.msg.len := Nat.pow_le_pow_right (by decide) (le_max_right ..)

end Sys2Proof.Machine
end

section
/-! The step (00_scope.md R18, 70_reset_and_hazards.md R250): what it takes off the schedule and records, what RESET
leaves, and that in a reachable state it goes on. -/

namespace Sys2Proof.Machine

/-! ## Inputs, records and RESET -/

/-- Settles O8: `step_of_command`, with the record of a command that goes on; no command is refused. -/
theorem stepRunsTheDecodedCommand : Obligations.StepRunsTheDecodedCommand := by
  intro s w rest i hs hd
  have hstep : step s = finish (exec i (s.take rest)) := step_of_command hs hd
  exact ⟨fun t ht => hstep.trans (congrArg finish ht), fun f hf => hstep.trans (congrArg finish hf),
    exec_not_refused i (s.take rest)⟩

/-- Settles O9: the three cases of a step; a command leaves schedule and trace to the step (`exec_frame`). -/
theorem oneInputOneRecord : Obligations.OneInputOneRecord := by
  intro s t h
  rcases step_cases h with ⟨none, rfl⟩ | ⟨inp, rest, hs, -, rfl⟩ | ⟨inp, rest, i, u, hs, -, -, he, rfl⟩
  · exact ⟨fun _ => rfl, fun inp rest hs => by simp [none] at hs⟩
  · refine ⟨fun none => by simp [hs] at none, fun inp' rest' hs' => ?_⟩
    cases hs.symm.trans hs'
    exact ⟨rfl, rfl⟩
  · refine ⟨fun none => by simp [hs] at none, fun inp' rest' hs' => ?_⟩
    cases hs.symm.trans hs'
    obtain ⟨-, -, inputs, trace⟩ := exec_frame he
    exact ⟨inputs, congrArg (· ++ [u.outputs]) trace⟩

theorem step_inputs {s t : State} (h : step s = .next t) : t.inputs = s.inputs.tail := by
  obtain ⟨idle, taken⟩ := oneInputOneRecord s t h
  cases hs : s.inputs with
  | nil => rw [idle hs]; exact hs
  | cons inp rest => exact (taken inp rest hs).1

/-- Settles O11: the step is `State.applyReset`, whatever the word. -/
theorem resetSetsEveryRegister : Obligations.ResetSetsEveryRegister :=
  fun _ _ _ hs => ⟨_, step_of_reset hs, rfl, rfl, rfl, rfl, rfl, rfl, rfl, rfl, rfl, rfl, rfl, rfl, rfl, rfl, rfl, rfl⟩

/-- Settles O12: every register of `State.applyReset` is a constant or read off the build parameters. -/
theorem nothingElseSurvivesReset : Obligations.NothingElseSurvivesReset := by
  intro s s' w w' rest rest' hs hs' build msg
  refine ⟨_, _, step_of_reset hs, step_of_reset hs', ?_, rfl, rfl, rfl, rfl⟩
  constructor <;> simp [build, msg]

/-- Settles O13: the model's reset state is a boot state, which holds the neutral pair. -/
theorem resetStateIsTheBootState : Obligations.ResetStateIsTheBootState :=
  ⟨State.reset_eq_boot, config_message_wf,
    (State.readRpt_of_holds (State.boot_holds Config.build Config.message [])).trans (report_neutral Config.build), rfl, rfl⟩

/-! ## Steps that go on -/

theorem exec_other_completes (s : State) {i : Instr} (hi : ∀ rdy btn, i ≠ .tick rdy btn) : ∃ t, exec i s = .next t := by
  rcases Bool.eq_false_or_eq_true s.halted with halted | running
  · exact ⟨_, exec_of_halted halted i⟩
  · cases i with
    | tick rdy btn => exact absurd rfl (hi rdy btn)
    | hostLed b => exact ⟨_, exec_hostLed running b⟩
    | setReport len b =>
      by_cases one : len = 1
      · subst one
        exact ⟨_, exec_setReport_one running b⟩
      · exact ⟨_, exec_setReport_other running one b⟩
    | getReport => exact ⟨_, exec_getReport running⟩
    | getIdle => exact ⟨_, exec_getIdle running⟩
    | setIdle b => exact ⟨_, exec_setIdle running b⟩
    | ctrlOther req => exact ⟨_, exec_ctrlOther running req⟩

theorem exec_tick_completes {s : State} (rom : RomInv s) (cursor : CursorInv s) (rdy btn : Bool) :
    ∃ t, exec (.tick rdy btn) s = .next t := by
  rcases Bool.eq_false_or_eq_true s.halted with halted | running
  · exact ⟨_, exec_of_halted halted _⟩
  · cases trip : s.trip with
    | true => exact ⟨_, exec_tick_trip running trip rdy btn⟩
    | false =>
      cases rdy with
      | false => exact ⟨_, exec_tick_notReady running trip btn⟩
      | true =>
        rw [exec_tick_ready running trip]
        exact State.stepSequencer_completes (s := s.quiet.service) btn rom cursor

/-- Settles O42: no command of the transport is a TICK, and a TICK needs the ROM and the cursor of the invariant. -/
theorem everyCommandCompletes : Obligations.EveryCommandCompletes := by
  refine ⟨fun i s transport => exec_other_completes s fun rdy btn tick => ?_,
    fun rdy btn s inv => exec_tick_completes inv.rom inv.cursor rdy btn⟩
  subst tick
  cases transport

theorem exec_completes {s : State} (inv : Inv s) (i : Instr) : ∃ t, exec i s = .next t := by
  rcases Instr.tick_or_other i with ⟨rdy, btn, rfl⟩ | hi
  · exact exec_tick_completes inv.rom inv.cursor rdy btn
  · exact exec_other_completes s hi

theorem Inv.take {s : State} (inv : Inv s) (rest : List Input) : Inv (s.take rest) :=
  ⟨inv.rom, inv.report, inv.cursor, inv.led, inv.halt, inv.staged⟩

/-- In a state with the invariant a step goes on, or the word presented is illegal and refused for its reason. -/
theorem Inv.step_completes_or_illegal {s : State} (inv : Inv s) :
    (∃ t, step s = .next t) ∨ ∃ w rest why, s.inputs = ⟨false, w⟩ :: rest ∧ decode w = .error why ∧
      step s = .refused (.illegalWord why) := by
  match hs : s.inputs with
  | [] => exact .inl ⟨s.quiet, by simp only [step, hs]⟩
  | ⟨true, w⟩ :: rest => exact .inl ⟨_, step_of_reset hs⟩
  | ⟨false, w⟩ :: rest =>
    cases hd : decode w with
    | error why => exact .inr ⟨w, rest, why, rfl, hd, step_of_illegal hs hd⟩
    | ok i =>
      obtain ⟨t, ht⟩ := exec_completes (inv.take rest) i
      exact .inl ⟨t.record, by rw [step_of_command hs hd, ht, finish]⟩

/-- Settles O58: a reachable state has the invariant, so its step goes on or refuses an illegal word. -/
theorem reachableStatesNeverFault : Obligations.ReachableStatesNeverFault := by
  intro s reachable
  rcases reachable.inv.step_completes_or_illegal with ⟨t, ht⟩ | ⟨w, rest, why, hs, hd, ht⟩
  · simp [ht]
  · refine ⟨by simp [ht], fun r hr => ⟨w, rest, why, hs, hd, ?_⟩⟩
    exact (Host.Outcome.refused.inj (ht.symm.trans hr)).symm

/-! ## What a step emits -/

theorem ReportInv.readRpt_length {s : State} (h : ReportInv s) : s.readRpt.length = s.build.rlen := by
  obtain ⟨k, slots, -⟩ := h
  rw [State.readRpt_of_holds (p := ⟨s.rptMod, k⟩) ⟨rfl, slots⟩, report_length]

/-- A step emits nothing, or the report as it stands after the step. -/
theorem step_inEmit {s t : State} (h : step s = .next t) : t.inEmit = none ∨ t.inEmit = some t.readRpt := by
  rcases step_cases h with ⟨-, rfl⟩ | ⟨inp, rest, -, -, rfl⟩ | ⟨inp, rest, i, u, -, -, -, he, rfl⟩
  · exact .inl rfl
  · exact .inl rfl
  · cases hu : u.inEmit with
    | none => exact .inl hu
    | some d => exact .inr (hu.trans (congrArg some ((emissionsAreCharAndReleaseSteps i _ u he).2 d hu)))

/-- Settles O59: what is emitted is the report after the step, which still has the invariant of the Report Buffer. -/
theorem reportsHaveTheDeclaredLength : Obligations.ReportsHaveTheDeclaredLength := by
  intro s t inv h d hd
  rcases step_inEmit h with silent | emits
  · simp [silent] at hd
  · cases hd.symm.trans emits
    have length := (reportInv_kept.step h inv.report).readRpt_length
    exact ⟨by rw [length, (step_keeps_msg_build h).2], rfl⟩

end Sys2Proof.Machine
end

section
/-! What TICK and the other commands leave unchanged (10_state.md R48, 44_sequencer.md R180, 45_control_requests.md R205,
60_exceptions.md R222). -/

namespace Sys2Proof.Machine

/-! ## TICK -/

/-- R172 to R175: which step of the sequencer writes which register. -/
theorem State.stepSequencer_writes {s t : State} {btn : Bool} (h : s.stepSequencer btn = .next t) :
    (t.toggleCnt = s.toggleCnt ∨
      s.seq = .idle ∧ btn = false ∧ t.toggleCnt = 0x00#8 ∧ t.seq = .characterPending) ∧
    (t.inEmit = none → t.rptMod = s.rptMod ∧ t.rptKey = s.rptKey ∧ t.curChar = s.curChar ∧ t.cursor = s.cursor) ∧
    (t.cursor ≠ s.cursor → s.seq = .releasePending) ∧ (t.curChar ≠ s.curChar → s.seq = .characterPending) := by
  rcases State.stepSequencer_cases h with ⟨hs, hb, rfl⟩ | ⟨-, -, rfl⟩ | ⟨hs, c, -, rfl⟩ | ⟨hs, -, rfl⟩ | ⟨hs, -, rfl⟩ |
    ⟨-, -, rfl⟩ | ⟨-, -, rfl⟩
  · simp [hs, hb]
  · simp
  · simp [hs]
  · simp [hs, State.release]
  · simp [hs, State.release]
  · simp
  · simp

/-- Settles O41: halted, tripping or not ready, a TICK writes at most HALTED and the strobe; otherwise it is a step of the
sequencer (`State.stepSequencer_frame`, `State.stepSequencer_writes`). -/
theorem tickFrame : Obligations.TickFrame := by
  intro rdy btn s t h
  obtain ⟨msg, build, inputs, trace⟩ := exec_frame h
  have noAnswer := execTick_ctrlResp h
  have reads (a : Nat) : t.msg.read a = s.msg.read a := congrArg (Memory.read · a) msg
  rcases execTick_cases h with ⟨-, rfl⟩ | ⟨-, -, rfl⟩ | ⟨-, -, -, rfl⟩ | ⟨-, -, hr, hseq⟩
  · simp
  · simp
  · simp
  · obtain ⟨led, caps, idle, -⟩ := State.stepSequencer_frame hseq
    obtain ⟨cnt, silent, cursor, curChar⟩ := State.stepSequencer_writes hseq
    exact ⟨led, caps, idle, build, inputs, trace, noAnswer, reads,
      cnt.imp_right fun ⟨hs, hb, cleared, pending⟩ => ⟨hs, hr, hb, cleared, pending⟩, silent, cursor, curChar⟩

/-- What a TICK puts out and where it leaves the sequencer, the halt, the counter and the report. -/
structure SameTyping (t u : State) : Prop where
  inEmit : u.inEmit = t.inEmit
  wdtService : u.wdtService = t.wdtService
  ctrlResp : u.ctrlResp = t.ctrlResp
  seq : u.seq = t.seq
  cursor : u.cursor = t.cursor
  halted : u.halted = t.halted
  toggleCnt : u.toggleCnt = t.toggleCnt
  readRpt : u.readRpt = t.readRpt

/-- The registers that no step of the sequencer reads (R42, R43, R183). -/
def State.withUnread (led cur idle : Byte) (s : State) : State :=
  { s with ledState := led, curChar := cur, idleRate := idle }

theorem SameTyping.withUnread (led cur idle : Byte) (s : State) : SameTyping s (s.withUnread led cur idle) :=
  ⟨rfl, rfl, rfl, rfl, rfl, rfl, rfl, rfl⟩

theorem State.stepSequencer_withUnread {s t : State} {btn : Bool} (led cur idle : Byte)
    (h : s.stepSequencer btn = .next t) :
    ∃ u, (s.withUnread led cur idle).stepSequencer btn = .next u ∧ SameTyping t u := by
  rcases State.stepSequencer_cases h with ⟨hs, rfl, rfl⟩ | ⟨hs, rfl, rfl⟩ | ⟨hs, c, hc, rfl⟩ | ⟨hs, ⟨c, hc, hend⟩, rfl⟩ |
    ⟨hs, ⟨c, d, hc, hne, hd, hdne⟩, rfl⟩ | ⟨hs, rfl, rfl⟩ | ⟨hs, rfl, rfl⟩
  · exact ⟨_, State.stepSequencer_of_idle (s := s.withUnread led cur idle) hs _, rfl, rfl, rfl, rfl, rfl, rfl, rfl, rfl⟩
  · exact ⟨_, State.stepSequencer_of_idle (s := t.withUnread led cur idle) hs _, .withUnread led cur idle t⟩
  · exact ⟨_, State.stepSequencer_of_character (s := s.withUnread led cur idle) _ hs hc,
      rfl, rfl, rfl, rfl, rfl, rfl, rfl, rfl⟩
  · exact ⟨_, State.stepSequencer_of_end (s := s.withUnread led cur idle) _ hs hc hend,
      rfl, rfl, rfl, rfl, rfl, rfl, rfl, rfl⟩
  · exact ⟨_, State.stepSequencer_of_more (s := s.withUnread led cur idle) _ hs hc hne hd hdne,
      rfl, rfl, rfl, rfl, rfl, rfl, rfl, rfl⟩
  · exact ⟨_, State.stepSequencer_of_await (s := s.withUnread led cur idle) hs _, rfl, rfl, rfl, rfl, rfl, rfl, rfl, rfl⟩
  · exact ⟨_, State.stepSequencer_of_await (s := t.withUnread led cur idle) hs _, .withUnread led cur idle t⟩

/-- Settles O40: the gate and the trip check read neither register, and no step of the sequencer does. -/
theorem typingIgnoresOtherRegisters : Obligations.TypingIgnoresOtherRegisters := by
  intro rdy btn s t led cur idle h
  suffices ∃ u, exec (.tick rdy btn) (s.withUnread led cur idle) = .next u ∧ SameTyping t u by
    obtain ⟨u, hu, same⟩ := this
    exact ⟨u, hu, same.inEmit, same.wdtService, same.ctrlResp, same.seq, same.cursor, same.halted, same.toggleCnt,
      same.readRpt⟩
  rcases execTick_cases h with ⟨hh, rfl⟩ | ⟨hh, ht, rfl⟩ | ⟨hh, ht, rfl, rfl⟩ | ⟨hh, ht, rfl, hseq⟩
  · exact ⟨_, exec_of_halted (s := s.withUnread led cur idle) hh _, .withUnread led cur idle s.quiet⟩
  · exact ⟨_, exec_tick_trip (s := s.withUnread led cur idle) hh ht _ _, .withUnread led cur idle s.quiet.raiseSafetyTrip⟩
  · exact ⟨_, exec_tick_notReady (s := s.withUnread led cur idle) hh ht _, .withUnread led cur idle s.quiet.service⟩
  · rw [exec_tick_ready (s := s.withUnread led cur idle) hh ht]
    exact State.stepSequencer_withUnread led cur idle hseq

/-! ## The other commands -/

/-- Settles O50: `exec_other_cases`, clause by clause. -/
theorem controlRequestsSpareTheSequencer : Obligations.ControlRequestsSpareTheSequencer := by
  intro i s t h notTick notLed
  obtain ⟨led, cnt, caps, idle, resp, rfl, leds, idles, -⟩ := exec_other_cases h notTick
  refine ⟨rfl, rfl, rfl, rfl, rfl, rfl, rfl, rfl, rfl, rfl, rfl, fun _ => rfl, fun notSet => ?_, idles⟩
  obtain ⟨hled, hcnt, hcaps⟩ := leds notLed notSet
  exact ⟨hled, hcaps, hcnt⟩

/-- R180: a TICK that leaves another state for Idle is StepAwait on a released level. -/
theorem execTick_enters_idle {s t : State} {rdy btn : Bool} (h : execTick rdy btn s = .next t) (hs : s.seq ≠ .idle)
    (ht : t.seq = .idle) : rdy = true ∧ btn = true ∧ s.seq = .awaitButtonRelease := by
  rcases execTick_cases h with ⟨-, rfl⟩ | ⟨-, -, rfl⟩ | ⟨-, -, -, rfl⟩ | ⟨-, -, hr, hseq⟩
  · exact absurd ht hs
  · exact absurd ht hs
  · exact absurd ht hs
  · rcases State.stepSequencer_cases hseq with ⟨idle, -, -⟩ | ⟨idle, -, -⟩ | ⟨-, c, -, rfl⟩ | ⟨-, -, rfl⟩ | ⟨-, -, rfl⟩ |
      ⟨await, hb, -⟩ | ⟨-, -, rfl⟩
    · exact absurd idle hs
    · exact absurd idle hs
    · cases ht
    · cases ht
    · cases ht
    · exact ⟨hr, hb, await⟩
    · exact absurd ht hs

/-- Settles O37: a step is idle, a RESET, a TICK (`execTick_enters_idle`) or a command that leaves SEQ and CURSOR
alone. -/
theorem idleOnlyThroughRelease : Obligations.IdleOnlyThroughRelease := by
  have other {i : Instr} {s t : State} (h : exec i s = .next t) (hi : ∀ rdy btn, i ≠ .tick rdy btn) :
      t.seq = s.seq ∧ t.cursor = s.cursor := by
    obtain ⟨led, cnt, caps, idle, resp, rfl⟩ := exec_other_frame h hi
    exact ⟨rfl, rfl⟩
  refine ⟨fun s t h hs ht => ?_, fun i s t => other⟩
  rcases step_cases h with ⟨-, rfl⟩ | ⟨inp, rest, hin, reset, -⟩ | ⟨inp, rest, i, u, hin, -, hd, he, rfl⟩
  · exact absurd ht hs
  · exact ⟨inp, rest, hin, .inl reset⟩
  · rcases Instr.tick_or_other i with ⟨rdy, btn, rfl⟩ | hi
    · obtain ⟨rfl, rfl, await⟩ := execTick_enters_idle he hs ht
      exact ⟨inp, rest, hin, .inr ⟨hd, await⟩⟩
    · exact absurd ((other he hi).1.symm.trans ht) hs

/-! ## HALTED -/

/-- R222: a TICK that sets HALTED found the count at TRIP, and sets nothing else. -/
theorem execTick_halts {s t : State} {rdy btn : Bool} (h : execTick rdy btn s = .next t) (hs : s.halted = false)
    (ht : t.halted = true) : s.trip = true ∧ t = s.quiet.raiseSafetyTrip := by
  rcases execTick_cases h with ⟨hh, -⟩ | ⟨-, trip, rfl⟩ | ⟨-, -, -, rfl⟩ | ⟨-, -, -, hseq⟩
  · simp [hs] at hh
  · exact ⟨trip, rfl⟩
  · simp [hs] at ht
  · simp [(State.stepSequencer_frame hseq).2.2.2, hs] at ht

theorem exec_other_halted {i : Instr} {s t : State} (h : exec i s = .next t) (hi : ∀ rdy btn, i ≠ .tick rdy btn) :
    t.halted = s.halted := by
  obtain ⟨led, cnt, caps, idle, resp, rfl⟩ := exec_other_frame h hi
  rfl

/-- Settles O54: no step but a RESET clears HALTED, for a halted block answers every command with itself
(`exec_of_halted`); what sets it is `execTick_halts`. -/
theorem haltEntryAndExit : Obligations.HaltEntryAndExit := by
  intro s t h
  rcases step_cases h with ⟨-, rfl⟩ | ⟨⟨reset, w⟩, rest, hin, rfl, rfl⟩ | ⟨⟨reset, w⟩, rest, i, u, hin, rfl, hd, he, rfl⟩
  · exact ⟨fun running halted => by simp [running] at halted, fun halted running => by simp [halted] at running⟩
  · exact ⟨fun _ halted => by simp at halted, fun _ _ => ⟨w, rest, hin⟩⟩
  · refine ⟨fun running halted => ?_, fun halted running => ?_⟩
    · rcases Instr.tick_or_other i with ⟨rdy, btn, rfl⟩ | hi
      · obtain ⟨trip, rfl⟩ := execTick_halts he running halted
        exact ⟨s.trip_iff.mp trip, ⟨rfl, rfl, rfl, rfl, rfl, rfl, rfl, rfl, rfl, rfl, rfl, rfl⟩, w, rest, rdy, btn, hin, hd⟩
      · simp [exec_other_halted he hi, running] at halted
    · rw [exec_of_halted (s := s.take rest) halted] at he
      cases he
      simp [halted] at running

end Sys2Proof.Machine
end

section
/-! Runs (00_scope.md R18): what every step keeps, every run keeps, and the step of a well-formed command. -/

namespace Sys2Proof.Machine

theorem run_keeps {P : State → Prop} (keeps : ∀ {s t}, step s = .next t → P s → P t) {k : Nat} {s t : State}
    (h : run k s = .next t) (hs : P s) : P t := by
  induction k generalizing s with
  | zero => cases h; exact hs
  | succ k ih =>
    cases hu : step s with
    | next u => rw [run_succ_of_next hu] at h; exact ih h (keeps hu hs)
    | fault f => simp [run, hu] at h
    | refused r => simp [run, hu] at h

theorem step_of_inputOf {s : State} {i : Instr} {rest : List Input} (wf : i.wf = true)
    (hs : s.inputs = inputOf i :: rest) : step s = finish (exec i (s.take rest)) :=
  step_of_command hs (decodeOfEncode i wf)

end Sys2Proof.Machine
end

section
/-! Host LED bytes (43_led_controller.md R150 to R156): repeats, the sentinel, and the count over a sequence of bytes. -/

namespace Sys2Proof.Machine

/-! ## One byte -/

@[simp] theorem State.onHostReport_ledState (s : State) (b : Byte) : (s.onHostReport b).ledState = b := by
  by_cases repeated : b = s.ledState
  · rw [repeated, State.onHostReport_duplicate]
  · rw [State.onHostReport_new repeated]

/-- After a host LED byte, on either path, the block is halted or has the byte stored. -/
theorem ledState_of_ledCommand {s t : State} {d : LedPath × Byte} (h : exec (ledCommand d) s = .next t) :
    t.halted = true ∨ d.2 = t.ledState := by
  rcases Bool.eq_false_or_eq_true s.halted with halted | running
  · rw [exec_of_halted halted] at h
    cases h
    exact .inl halted
  · obtain ⟨resp, e⟩ := exec_ledCommand running d
    rw [e] at h
    cases h
    exact .inr (State.onHostReport_ledState s.quiet d.2).symm

/-- R151: where the block is halted or has the byte stored, delivering it changes no register. -/
theorem exec_ledCommand_repeated {s : State} {d : LedPath × Byte} (h : s.halted = true ∨ d.2 = s.ledState) :
    ∃ u, exec (ledCommand d) s = .next u ∧ SameBlock s u := by
  rcases Bool.eq_false_or_eq_true s.halted with halted | running
  · exact ⟨_, exec_of_halted halted _, .quiet s⟩
  · have repeated : d.2 = s.quiet.ledState := h.resolve_left (by simp [running])
    obtain ⟨resp, e⟩ := exec_ledCommand running d
    rw [repeated, State.onHostReport_duplicate] at e
    exact ⟨_, e, rfl, rfl, rfl, rfl, rfl, rfl, rfl, rfl, rfl, rfl, rfl, rfl⟩

/-- Settles O22: after the first delivery `exec_ledCommand_repeated` holds of the second, whatever path either takes. -/
theorem ledByteIsDeduplicated : Obligations.LedByteIsDeduplicated := by
  intro b s t first
  have again (path : LedPath) : ∃ u, exec (ledCommand (path, b)) t = .next u ∧ SameBlock t u :=
    exec_ledCommand_repeated (first.elim (ledState_of_ledCommand (d := (.interruptOut, b)))
      (ledState_of_ledCommand (d := (.control, b))))
  exact ⟨again .interruptOut, again .control⟩

/-- Settles O23: the two running cases of HOST_LED (O21) at the byte 0xFF. -/
theorem hostSentinelByte : Obligations.HostSentinelByte := by
  intro s running
  obtain ⟨-, repeated, new⟩ := hostLedUpdatesTheLedController 0xFF#8 s
  by_cases stored : s.ledState = 0xFF#8
  · exact ⟨_, repeated running stored.symm, fun _ => .quiet s, fun other => absurd stored other⟩
  · refine ⟨_, new running (Ne.symm stored), fun same => absurd same stored, fun _ => ⟨rfl, rfl, rfl, ?_, ?_⟩⟩
    · intro capsOff
      simp [capsOff]
    · intro capsOn
      simp [capsOn]

/-- Settles O24: the running cases of HOST_LED (O21); with bit 1 as stored there is no edge against CAPS_ON. -/
theorem otherLockBitsNeverCount : Obligations.OtherLockBitsNeverCount := by
  intro b s running follows same
  obtain ⟨-, repeated, new⟩ := hostLedUpdatesTheLedController b s
  by_cases stored : b = s.ledState
  · rw [repeated running stored, stored]
  · have noEdge : ¬(b.getLsbD 1 = true ∧ s.capsOn = false) := by
      rw [follows, same]
      simp
    rw [new running stored, if_neg noEdge, same, ← follows]

/-- Settles O26: only a host LED byte in a running block moves LED_STATE (`exec_other_led`); RESET stores the sentinel. -/
theorem ledValidNeedsAHostByte : Obligations.LedValidNeedsAHostByte := by
  intro s t h before after
  have moved : t.ledState ≠ s.ledState := fun same => by
    rw [State.ledValid, same] at after
    exact absurd (before.symm.trans after) (by decide)
  rcases step_cases h with ⟨-, rfl⟩ | ⟨inp, rest, -, -, rfl⟩ | ⟨⟨reset, w⟩, rest, i, u, hin, rfl, hd, he, rfl⟩
  · exact absurd rfl moved
  · cases after
  · rcases Instr.tick_or_other i with ⟨rdy, btn, rfl⟩ | hi
    · exact absurd (tickFrame rdy btn _ u he).1 moved
    · rcases exec_other_led he hi with ⟨led, -, -⟩ | ⟨running, ⟨path, b⟩, rfl, led, -⟩
      · exact absurd led moved
      · refine ⟨running, w, rest, b, hin, fun sentinel => ?_, led, ?_⟩
        · rw [State.ledValid, State.record_ledState, led, sentinel] at after
          cases after
        · cases path
          · exact .inl hd
          · exact .inr hd

/-! ## Sequences of bytes -/

theorem ledCommand_wf (d : LedPath × Byte) : (ledCommand d).wf = true := by
  obtain ⟨path, b⟩ := d
  cases path <;> rfl

/-- The step of a host LED byte in a running block: `onHostReport`, whatever the path. -/
theorem step_ledCommand {s : State} {d : LedPath × Byte} {rest : List Input} (running : s.halted = false)
    (hs : s.inputs = inputOf (ledCommand d) :: rest) :
    ∃ t, step s = .next t ∧ t.inputs = rest ∧ t.halted = false ∧ t.ledState = (s.onHostReport d.2).ledState ∧
      t.capsOn = (s.onHostReport d.2).capsOn ∧ t.toggleCnt = (s.onHostReport d.2).toggleCnt := by
  obtain ⟨resp, e⟩ := exec_ledCommand (s := s.take rest) running d
  have h := step_of_inputOf (ledCommand_wf d) hs
  rw [e, finish] at h
  refine ⟨_, h, ?_⟩
  by_cases repeated : d.2 = s.ledState
  · have hq : d.2 = (s.take rest).quiet.ledState := repeated
    rw [hq, State.onHostReport_duplicate, show (s.take rest).quiet.ledState = s.ledState from rfl,
      State.onHostReport_duplicate]
    exact ⟨rfl, running, rfl, rfl, rfl⟩
  · have hq : d.2 ≠ (s.take rest).quiet.ledState := repeated
    rw [State.onHostReport_new hq, State.onHostReport_new repeated]
    exact ⟨rfl, running, rfl, rfl, rfl⟩

/-- R152, R24: a byte moves its own edge from the sequence to the counter, which saturates. -/
theorem count_onHostReport (s : State) (b : Byte) (bs : List Byte) :
    min 255 ((s.onHostReport b).toggleCnt.toNat +
        capsEdges (s.onHostReport b).ledState (s.onHostReport b).capsOn bs) =
      min 255 (s.toggleCnt.toNat + capsEdges s.ledState s.capsOn (b :: bs)) := by
  by_cases repeated : b = s.ledState
  · rw [repeated, State.onHostReport_duplicate, capsEdges, if_pos rfl]
  · rw [State.onHostReport_new repeated, capsEdges, if_neg repeated]
    by_cases edge : (capsBit b && !s.capsOn) = true
    · simp only [if_pos edge, satInc8_toNat]
      omega
    · simp only [if_neg edge, Nat.zero_add]

/-- Settles O27: induction on the bytes; each step is `onHostReport`, which `count_onHostReport` accounts for. -/
theorem counterCountsCapsEdges : Obligations.CounterCountsCapsEdges := by
  intro s ds rest running hs
  induction ds generalizing s with
  | nil => exact ⟨s, rfl, hs, running, (min_eq_right (Nat.le_of_lt_succ s.toggleCnt.isLt)).symm⟩
  | cons d ds ih =>
    obtain ⟨t, ht, inputs, halted, led, caps, cnt⟩ := step_ledCommand running hs
    obtain ⟨u, hu, rest', halted', count⟩ := ih t halted inputs
    refine ⟨u, (run_succ_of_next ht).trans hu, rest', halted', ?_⟩
    rw [count, led, caps, cnt]
    exact count_onHostReport s d.2 _

/-- What a TICK does to HALTED and the watchdog in a running block (R223, R52). -/
theorem execTick_of_running {s t : State} {rdy btn : Bool} (h : execTick rdy btn s = .next t) (running : s.halted = false) :
    t.halted = s.trip ∧ t.wdtService = !s.trip := by
  rcases execTick_cases h with ⟨halted, -⟩ | ⟨-, trip, rfl⟩ | ⟨-, trip, -, rfl⟩ | ⟨-, trip, -, hseq⟩
  · simp [running] at halted
  · simp [trip]
  · simp [trip, running]
  · obtain ⟨-, -, -, halted⟩ := State.stepSequencer_frame hseq
    simp [trip, running, halted, (State.stepSequencer_keeps_wdtService_ctrlResp hseq).1]

/-- R156: each 0x02 after 0x00 is an edge, and the 0x00 between arms the next. -/
theorem capsEdges_alternation (n : Nat) (led : Byte) (h : led ≠ 0x02#8) :
    capsEdges led false (List.replicate n [0x02#8, 0x00#8]).flatten = n := by
  induction n generalizing led with
  | zero => rfl
  | succ n ih =>
    rw [List.replicate_succ, List.flatten_cons]
    have rest := ih 0x00#8 (by decide)
    simp [capsEdges, h.symm, capsBit, rest, Nat.add_comm]

/-- Settles O28: the count before the TICK is O27's, and the TICK halts or services by TRIP of it. -/
theorem fiveEdgesTripAndFourDoNot : Obligations.FiveEdgesTripAndFourDoNot := by
  refine ⟨fun s ds rdy btn rest inv running hs => ?_, capsEdges_alternation⟩
  obtain ⟨t, ht, inputs, stillRunning, count⟩ := counterCountsCapsEdges s ds _ running hs
  have invT : Inv t := run_keeps (fun h hs => everyStepKeepsTheInvariant _ _ hs h) ht inv
  obtain ⟨u, hu⟩ := exec_completes (invT.take rest) (.tick rdy btn)
  have tick : step t = .next u.record := by rw [step_of_inputOf rfl inputs, hu, finish]
  obtain ⟨halted, service⟩ := execTick_of_running hu stillRunning
  have trip : (t.take rest).trip = true ↔ 5 ≤ s.toggleCnt.toNat + capsEdges s.ledState s.capsOn (ds.map Prod.snd) := by
    rw [State.trip_iff, State.take_toggleCnt, count]
    omega
  refine ⟨u.record, by rw [run_add _ 1 ht, run_succ_of_next tick, run], (exec_frame hu).2.2.1, fun five => ?_,
    fun four => ?_⟩
  · have tripped := trip.mpr five
    exact ⟨halted.trans tripped, by rw [State.record_wdtService, service, tripped, Bool.not_true]⟩
  · have below : (t.take rest).trip = false := Bool.eq_false_iff.mpr fun tripped => absurd (trip.mp tripped) (by omega)
    exact ⟨halted.trans below, by rw [State.record_wdtService, service, below, Bool.not_false]⟩

end Sys2Proof.Machine
end

section
/-! Control requests and the halt over runs (45_control_requests.md R200, R202, 60_exceptions.md R225, R226). -/

namespace Sys2Proof.Machine

/-! ## GET_REPORT -/

/-- R200: modifier and first keycode of the copy are neutral, the other slots as they are. -/
theorem State.maskedReport_of_slots {s : State} {k : Byte} {keys : List Byte} (h : s.rptKey = k :: keys) :
    s.maskedReport = 0x00#8 :: 0x00#8 :: 0x00#8 :: keys := by
  rw [State.maskedReport, State.readRpt, h]
  rfl

/-- Settles O44: the copy is `State.maskedReport_of_slots`; over clear slots it is the neutral report. -/
theorem getReportAnswersAMaskedCopy : Obligations.GetReportAnswersAMaskedCopy := by
  intro s
  refine ⟨fun halted => exec_of_halted halted _, fun k keys running slots => ?_, fun running inv => ?_⟩
  · rw [exec_getReport running, State.maskedReport_of_slots (s := s.quiet) slots]
    rfl
  · obtain ⟨k, slots, -⟩ := inv
    rw [exec_getReport running, State.maskedReport_of_slots (s := s.quiet) slots]
    exact congrArg (fun answer => Host.Outcome.next (s.quiet.respond answer)) (report_neutral s.build)

/-- Settles O45: whatever the modifier and the first keycode, the outputs are those that the other slots give. -/
theorem getReportNeverLeaksTheKey : Obligations.GetReportNeverLeaksTheKey := by
  intro s m m' k k' keys
  have answers (m k : Byte) : ∃ t, exec .getReport { s with rptMod := m, rptKey := k :: keys } = .next t ∧
      t.outputs = ⟨none, false, if s.halted then none else some (0x00#8 :: 0x00#8 :: 0x00#8 :: keys), s.capsOn⟩ ∧
      t.rptMod = m ∧ t.rptKey = k :: keys := by
    rcases Bool.eq_false_or_eq_true s.halted with halted | running
    · rw [exec_of_halted (s := { s with rptMod := m, rptKey := k :: keys }) halted, if_pos halted]
      exact ⟨_, rfl, rfl, rfl, rfl⟩
    · rw [exec_getReport (s := { s with rptMod := m, rptKey := k :: keys }) running, if_neg (by simp [running])]
      exact ⟨_, rfl, rfl, rfl, rfl⟩
  obtain ⟨t, ht, outputs, modifier, slots⟩ := answers m k
  obtain ⟨t', ht', outputs', -, -⟩ := answers m' k'
  exact ⟨t, t', ht, ht', outputs.trans outputs'.symm, modifier, slots⟩

/-! ## IDLE_RATE -/

/-- Settles O52: a TICK keeps IDLE_RATE (O41), and of the other commands only a SET_IDLE in a running block writes it
(`exec_other_cases`). -/
theorem idleRateChangesOnlyBySetIdle : Obligations.IdleRateChangesOnlyBySetIdle := by
  intro s t h changed
  rcases step_cases h with ⟨-, rfl⟩ | ⟨inp, rest, hin, reset, rfl⟩ | ⟨inp, rest, i, u, hin, reset, hd, he, rfl⟩
  · exact absurd rfl changed
  · exact ⟨inp, rest, hin, .inl ⟨reset, rfl⟩⟩
  · rcases Instr.tick_or_other i with ⟨rdy, btn, rfl⟩ | hi
    · obtain ⟨-, -, idle, -⟩ := tickFrame rdy btn _ u he
      exact absurd idle changed
    · obtain ⟨led, cnt, caps, idle, resp, rfl, -, others, -, -, frozen, set⟩ := exec_other_cases he hi
      have running : s.halted = false := Bool.eq_false_iff.mpr fun halted => changed (frozen halted).2.2.2
      by_cases isSet : ∃ b, i = .setIdle b
      · obtain ⟨b, rfl⟩ := isSet
        exact ⟨inp, rest, hin, .inr ⟨running, reset, hd.trans (by rw [set b rfl running]; rfl)⟩⟩
      · exact absurd (others fun b hb => isSet ⟨b, hb⟩) changed

/-- On a chip with parameters `b`, IDLE_RATE is as after RESET and no SET_IDLE is still to come. -/
def IdleAsReset (b : Build) (s : State) : Prop :=
  s.build = b ∧ s.idleRate = b.idleRateReset ∧
    ∀ inp ∈ s.inputs, inp.reset = true ∨ ∀ v, decode inp.cmd ≠ .ok (.setIdle v)

theorem IdleAsReset.step {b : Build} {s t : State} (h : step s = .next t) (hs : IdleAsReset b s) : IdleAsReset b t := by
  obtain ⟨build, idle, inputs⟩ := hs
  refine ⟨(step_keeps_msg_build h).2.trans build, by_contra fun changed => ?_, fun inp hinp => ?_⟩
  · rw [← idle] at changed
    obtain ⟨inp, rest, hin, ⟨-, reset⟩ | ⟨-, notReset, set⟩⟩ := idleRateChangesOnlyBySetIdle s t h changed
    · exact changed (by rw [reset, idle, build])
    · rcases inputs inp (by simp [hin]) with reset | noSet
      · simp [notReset] at reset
      · exact noSet _ set
  · rw [step_inputs h] at hinp
    exact inputs inp (List.mem_of_mem_tail hinp)

/-- Settles O47: `exec_of_halted` and `exec_getIdle` for one request; over a run `IdleAsReset` is kept. -/
theorem getIdleAnswersTheIdleRate : Obligations.GetIdleAnswersTheIdleRate := by
  refine ⟨fun b m inputs k s noSet h running => ?_,
    fun s => ⟨fun halted => exec_of_halted halted _, fun running => exec_getIdle running⟩⟩
  have start : IdleAsReset b (State.boot b m inputs) := ⟨rfl, rfl, noSet⟩
  obtain ⟨-, idle, -⟩ := run_keeps IdleAsReset.step h start
  exact ⟨_, exec_getIdle running, by rw [State.respond_ctrlResp, idle]⟩

/-! ## Halted until RESET -/

theorem SameBlock.trans {s t u : State} (h : SameBlock s t) (h' : SameBlock t u) : SameBlock s u where
  rptMod := h'.rptMod.trans h.rptMod
  rptKey := h'.rptKey.trans h.rptKey
  ledState := h'.ledState.trans h.ledState
  capsOn := h'.capsOn.trans h.capsOn
  toggleCnt := h'.toggleCnt.trans h.toggleCnt
  seq := h'.seq.trans h.seq
  cursor := h'.cursor.trans h.cursor
  curChar := h'.curChar.trans h.curChar
  idleRate := h'.idleRate.trans h.idleRate
  halted := h'.halted.trans h.halted
  msg := h'.msg.trans h.msg
  build := h'.build.trans h.build

/-- R225: a halted block takes a command off the schedule, silently. -/
theorem step_of_halted {s : State} {i : Instr} {rest : List Input} (halted : s.halted = true) (wf : i.wf = true)
    (hs : s.inputs = inputOf i :: rest) : step s = .next (s.take rest).quiet.record := by
  rw [step_of_inputOf wf hs, exec_of_halted (s := s.take rest) halted, finish]

theorem run_of_halted {s : State} {cmds : List Instr} {rest : List Input} (halted : s.halted = true)
    (wf : ∀ i ∈ cmds, i.wf = true) (hs : s.inputs = cmds.map inputOf ++ rest) :
    ∃ t, run cmds.length s = .next t ∧ SameBlock s t ∧ t.inputs = rest ∧
      t.trace = s.trace ++ List.replicate cmds.length ⟨none, false, none, s.capsOn⟩ := by
  induction cmds generalizing s with
  | nil => exact ⟨s, rfl, .refl s, hs, (List.append_nil _).symm⟩
  | cons i cmds ih =>
    obtain ⟨wfi, wfs⟩ := List.forall_mem_cons.mp wf
    have first := step_of_halted halted wfi hs
    obtain ⟨t, ht, same, inputs, trace⟩ :=
      ih (s := (s.take (cmds.map inputOf ++ rest)).quiet.record) halted wfs rfl
    refine ⟨t, (run_succ_of_next first).trans ht,
      ((SameBlock.take s _).trans ((SameBlock.quiet _).trans (.record _))).trans same, inputs, ?_⟩
    rw [trace, List.length_cons, List.replicate_succ]
    exact List.append_assoc ..

/-- Settles O55: `run_of_halted`, then one RESET, which makes every register of the report neutral. -/
theorem haltedUntilReset : Obligations.HaltedUntilReset := by
  intro s cmds w rest halted wf hs
  obtain ⟨t, ht, same, inputs, trace⟩ := run_of_halted halted wf hs
  have reset := step_of_reset inputs
  refine ⟨t, _, ht, same, trace, by rw [run_add _ 1 ht, run_succ_of_next reset, run], rfl, rfl, rfl, rfl, rfl, rfl, ?_, ?_,
    rfl⟩
  · simp [same.build]
  · rw [← same.build, ← report_neutral]
    exact State.readRpt_of_holds (State.applyReset_holds (t.take rest))

/-! ## The report as it is staged -/

/-- Settles O19: setKey holds the pair it is given, and a release holds the neutral one. -/
theorem setKeyAndReleaseStageTheReport : Obligations.SetKeyAndReleaseStageTheReport := by
  intro k m s
  have staged : (s.setKey k m).readRpt = report s.build ⟨m, k⟩ := State.readRpt_of_holds (s.setKey_holds ⟨m, k⟩)
  exact ⟨rfl, staged, by rw [staged, report_length], rfl, s.release_readRpt⟩

end Sys2Proof.Machine
end

section
/-! The Mapper's other cases (41_mapper.md R115 to R122): digits, symbols, codes with no key, what it puts out, and the
printed table. -/

namespace Sys2Proof.Machine

/-! ## Digits and symbols -/

/-- R115: the third case; a digit's code lies below the letters' ranges. -/
theorem mapKey_of_digit {c : Byte} (caps : Bool) (h : 0x31#8 ≤ c ∧ c ≤ 0x39#8) :
    mapKey c caps = ⟨Config.modNone, c - 0x31#8 + 0x1E#8⟩ := by
  have hlower : ¬(0x61#8 ≤ c ∧ c ≤ 0x7A#8) := fun hl => absurd (BitVec.le_trans hl.1 h.2) (by decide)
  have hupper : ¬(0x41#8 ≤ c ∧ c ≤ 0x5A#8) := fun hu => absurd (BitVec.le_trans hu.1 h.2) (by decide)
  rw [mapKey, if_neg hlower, if_neg hupper, if_pos h]

/-- Settles O15: the digits are one range of the rules, counted by `toNat_sub_add`; the other codes are evaluated. -/
theorem digitsAndSymbolsIgnoreCaps : Obligations.DigitsAndSymbolsIgnoreCaps := by
  intro caps
  refine ⟨fun c first last => ?_, ?_⟩
  · rw [mapKey_of_digit caps ⟨first, last⟩]
    exact ⟨rfl, toNat_sub_add first (show c.toNat - 0x31 + 0x1E < 2 ^ 8 by omega)⟩
  · revert caps
    decide

/-! ## Codes with no key -/

/-- R119: the codes that the rules leave unmapped, as the spec lists them. -/
abbrev Unmapped (c : Byte) : Prop :=
  c.toNat ≤ 0x20 ∨ c.toNat = 0x22 ∨ c.toNat = 0x27 ∨ (0x2B ≤ c.toNat ∧ c.toNat ≤ 0x2F) ∨
    (0x3C ≤ c.toNat ∧ c.toNat ≤ 0x3F) ∨ (0x5B ≤ c.toNat ∧ c.toNat ≤ 0x5D) ∨
    (0x5F ≤ c.toNat ∧ c.toNat ≤ 0x60) ∨ 0x7B ≤ c.toNat

theorem symTable_lookup_of_unmapped {c : Byte} (h : Unmapped c) : symTable.lookup c = none := by
  have symbolsMapped : ∀ p ∈ symTable, ¬Unmapped p.1 := by simp [symTable]
  rw [List.lookup_eq_none_iff]
  intro p hp
  rw [bne_iff_ne]
  rintro rfl
  exact symbolsMapped p hp h

theorem mapKey_of_unmapped {c : Byte} (caps : Bool) (h : Unmapped c) : mapKey c caps = KeyPair.neutral := by
  have alone (d : Byte) (hd : ¬Unmapped d) : c ≠ d := fun e => hd (e ▸ h)
  have outside (first last : Byte) (hr : ¬(first.toNat ≤ c.toNat ∧ c.toNat ≤ last.toNat)) : ¬(first ≤ c ∧ c ≤ last) := hr
  rw [mapKey, if_neg (outside _ _ _), if_neg (outside _ _ _), if_neg (outside _ _ _), if_neg (alone 0x30#8 (by decide)),
    symTable_lookup_of_unmapped h]
  · exact (if_neg (alone 0x3A#8 (by decide))).trans (if_neg (alone 0x3B#8 (by decide)))
  all_goals
    simp only [BitVec.toNat_ofNat]
    omega

/-- Settles O16: no rule before the last applies to an unmapped code; the 256 codes are counted by evaluation. -/
theorem otherCharactersMapToNeutral : Obligations.OtherCharactersMapToNeutral := by
  intro caps
  refine ⟨fun c h => ?_, ?_⟩
  · have neutral := mapKey_of_unmapped caps h
    exact ⟨neutral, neutral.trans (mapKey_terminator caps).symm⟩
  · cases caps <;> rfl

/-! ## What the Mapper puts out -/

theorem letterMod_eq (upper caps : Bool) :
    letterMod upper caps = Config.modNone ∨ letterMod upper caps = Config.modShift := by
  cases upper <;> cases caps <;> decide

/-- R117: the keys of the symbols are those of the digits. -/
theorem symTable_key {c k : Byte} (h : symTable.lookup c = some k) : 0x04 ≤ k.toNat ∧ k.toNat ≤ 0x27 := by
  have keys : ∀ p ∈ symTable, 0x04 ≤ p.2.toNat ∧ p.2.toNat ≤ 0x27 := by simp [symTable]
  obtain ⟨before, after, e, -⟩ := List.lookup_eq_some_iff.mp h
  exact keys (c, k) (by simp [e])

/-- R122: no modifier or shift, with no key, one of the keys 0x04 to 0x27, or the key of ':' and ';'. -/
def KeyPair.Put (p : KeyPair) : Prop :=
  (p.mod = Config.modNone ∨ p.mod = Config.modShift) ∧
    (p.key = 0x00#8 ∨ (0x04 ≤ p.key.toNat ∧ p.key.toNat ≤ 0x27) ∨ p.key = 0x33#8)

/-- A range of at most 26 codes gives keys of the output set. -/
theorem KeyPair.put_of_range {c first last key mod : Byte} (h : first ≤ c ∧ c ≤ last)
    (hmod : mod = Config.modNone ∨ mod = Config.modShift) (low : 0x04 ≤ key.toNat)
    (high : last.toNat - first.toNat + key.toNat ≤ 0x27) : KeyPair.Put ⟨mod, c - first + key⟩ := by
  have hlast : c.toNat ≤ last.toNat := h.2
  refine ⟨hmod, .inr (.inl ?_)⟩
  rw [toNat_sub_add h.1 (by omega)]
  omega

theorem mapKey_put (c : Byte) (caps : Bool) : (mapKey c caps).Put := by
  unfold mapKey
  split
  next lower => exact KeyPair.put_of_range lower (letterMod_eq false caps) (by decide) (by decide)
  split
  next upper => exact KeyPair.put_of_range upper (letterMod_eq true caps) (by decide) (by decide)
  split
  next digit => exact KeyPair.put_of_range digit (.inl rfl) (by decide) (by decide)
  split
  next => exact ⟨.inl rfl, .inr (.inl (by decide))⟩
  split
  next k hk => exact ⟨.inr rfl, .inr (.inl (symTable_key hk))⟩
  split
  next => exact ⟨.inr rfl, .inr (.inr rfl)⟩
  split
  · exact ⟨.inl rfl, .inr (.inr rfl)⟩
  · exact ⟨.inl rfl, .inl rfl⟩

/-- Settles O17: the rules one by one in `mapKey_put`; no modifier without a key is `mapKey_zero_mod`. -/
theorem mapperOutputSet : Obligations.MapperOutputSet := by
  intro c caps
  obtain ⟨modifier, key⟩ := mapKey_put c caps
  exact ⟨modifier, key, mapKey_zero_mod c caps⟩

/-! ## The table -/

/-- Settles O18: both readings of the Mapper evaluated on all 256 codes and both caps states. -/
theorem mapperAgreesWithTheTable : Obligations.MapperAgreesWithTheTable :=
  ⟨rfl, by decide, by decide⟩

end Sys2Proof.Machine
end

section
/-! The press cycle (44_sequencer.md R178, R179): a run of ready ticks types the message, character by character. -/

namespace Sys2Proof.Machine

/-! ## Runs of ready ticks -/

/-- `k` steps lead from `s` to `t`, each with the watchdog serviced and no answer, and emit these reports in order. -/
def Types (k : Nat) (s t : State) (reports : List (List Byte)) : Prop :=
  run k s = .next t ∧ ∃ records, t.trace = s.trace ++ records ∧ records.length = k ∧
    (∀ r ∈ records, r.wdtService = true ∧ r.ctrlResp = none) ∧ records.filterMap OutputRecord.inEmit = reports

theorem Types.trans {j k : Nat} {s t u : State} {before after : List (List Byte)} (h : Types j s t before)
    (h' : Types k t u after) : Types (j + k) s u (before ++ after) := by
  obtain ⟨hrun, records, trace, length, serviced, emits⟩ := h
  obtain ⟨hrun', records', trace', length', serviced', emits'⟩ := h'
  refine ⟨(run_add j k hrun).trans hrun', records ++ records', ?_, ?_, ?_, ?_⟩
  · rw [trace', trace, List.append_assoc]
  · rw [List.length_append, length, length']
  · exact List.forall_mem_append.mpr ⟨serviced, serviced'⟩
  · rw [List.filterMap_append, emits, emits']

/-- A running block of a chip with message `m` and caps state `caps`, in a sequencer state and with ready ticks of
these levels to come, then `rest`. -/
structure Ready (b : Build) (caps : Bool) (m : List Byte) (btns : List Bool) (rest : List Input) (s : State) : Prop where
  build : s.build = b
  capsOn : s.capsOn = caps
  msg : s.msg = Memory.rom m
  running : s.halted = false
  below : s.trip = false
  inputs : s.inputs = btns.map (fun btn => inputOf (.tick true btn)) ++ rest

/-- The state in which a ready tick's step of the sequencer begins. -/
def State.atTick (s : State) : State := (s.take s.inputs.tail).quiet.service

section
variable {b : Build} {caps : Bool} {m : List Byte} {btn : Bool} {btns : List Bool} {rest : List Input} {s : State}

/-- One ready tick: the step of the sequencer, recorded with what it emits. -/
theorem Ready.tick {t : State} (ready : Ready b caps m (btn :: btns) rest s)
    (h : s.atTick.stepSequencer btn = .next t) :
    Types 1 s t.record t.inEmit.toList ∧ Ready b caps m btns rest t.record := by
  have hexec : exec (.tick true btn) (s.take s.inputs.tail) = .next t :=
    (exec_tick_ready (s := s.take s.inputs.tail) ready.running ready.below btn).trans h
  have hstep : step s = .next t.record := by
    rw [step_of_inputOf (i := .tick true btn) (rest := s.inputs.tail) rfl (by rw [ready.inputs]; rfl), hexec, finish]
  obtain ⟨msg, build, inputs, trace⟩ := exec_frame hexec
  obtain ⟨service, answer⟩ := State.stepSequencer_keeps_wdtService_ctrlResp h
  obtain ⟨-, capsOn, -, halted⟩ := State.stepSequencer_frame h
  refine ⟨⟨run_succ_of_next hstep, [t.outputs], congrArg (· ++ [t.outputs]) trace, rfl, ?_, ?_⟩, build.trans ready.build,
    capsOn.trans ready.capsOn, msg.trans ready.msg, halted.trans ready.running, ?_, ?_⟩
  · simpa [State.outputs] using ⟨service, answer⟩
  · cases hu : t.inEmit <;> simp [State.outputs, hu]
  · rcases (State.stepSequencer_writes h).1 with same | ⟨-, -, zero, -⟩
    · rw [State.trip, State.record_toggleCnt, same]
      exact ready.below
    · rw [State.trip, State.record_toggleCnt, zero]
      rfl
  · exact inputs.trans (congrArg List.tail ready.inputs)

/-- R172: a press starts the message. -/
theorem Ready.press (ready : Ready b caps m (false :: btns) rest s) (hs : s.seq = .idle) :
    ∃ t, Types 1 s t [] ∧ Ready b caps m btns rest t ∧ t.seq = .characterPending ∧ t.cursor = s.cursor := by
  obtain ⟨types, ready'⟩ := ready.tick (State.stepSequencer_of_idle (s := s.atTick) hs false)
  exact ⟨_, types, ready', rfl, rfl⟩

/-- R175: a released level re-arms the block. -/
theorem Ready.rearm (ready : Ready b caps m (true :: btns) rest s) (hs : s.seq = .awaitButtonRelease) :
    ∃ t, Types 1 s t [] ∧ Ready b caps m btns rest t ∧ t.seq = .idle ∧ t.cursor = s.cursor := by
  obtain ⟨types, ready'⟩ := ready.tick (State.stepSequencer_of_await (s := s.atTick) hs true)
  exact ⟨_, types, ready', rfl, rfl⟩

/-- R173: the report of the character under the cursor. -/
theorem Ready.character {c : Byte} (ready : Ready b caps m (btn :: btns) rest s) (hs : s.seq = .characterPending)
    (hc : s.msg.read s.cursor = some c) :
    ∃ t, Types 1 s t [report b (mapKey c caps)] ∧ Ready b caps m btns rest t ∧ t.seq = .releasePending ∧
      t.cursor = s.cursor := by
  obtain ⟨types, ready'⟩ := ready.tick (State.stepSequencer_of_character (s := s.atTick) btn hs hc)
  refine ⟨_, ?_, ready', rfl, rfl⟩
  rw [← ready.build, ← ready.capsOn]
  exact types

theorem Ready.release_readRpt (ready : Ready b caps m btns rest s) : s.atTick.release.readRpt = zeroReport b :=
  s.atTick.release_readRpt.trans (congrArg zeroReport ready.build)

/-- R174: the release frame after the last character. -/
theorem Ready.lastRelease {c : Byte} (ready : Ready b caps m (btn :: btns) rest s) (hs : s.seq = .releasePending)
    (hc : s.msg.read s.cursor = some c) (hend : s.msg.read (s.cursor + 1) = some 0x00#8) :
    ∃ t, Types 1 s t [zeroReport b] ∧ Ready b caps m btns rest t ∧ t.seq = .awaitButtonRelease ∧ t.cursor = 0 := by
  obtain ⟨types, ready'⟩ := ready.tick (State.stepSequencer_of_end (s := s.atTick) btn hs hc (.inr hend))
  refine ⟨_, ?_, ready', rfl, rfl⟩
  rw [← ready.release_readRpt]
  exact types

/-- R174: the release frame before another character. -/
theorem Ready.nextRelease {c d : Byte} (ready : Ready b caps m (btn :: btns) rest s) (hs : s.seq = .releasePending)
    (hc : s.msg.read s.cursor = some c) (hne : c ≠ 0x00#8) (hd : s.msg.read (s.cursor + 1) = some d)
    (hdne : d ≠ 0x00#8) :
    ∃ t, Types 1 s t [zeroReport b] ∧ Ready b caps m btns rest t ∧ t.seq = .characterPending ∧
      t.cursor = s.cursor + 1 := by
  obtain ⟨types, ready'⟩ := ready.tick (State.stepSequencer_of_more (s := s.atTick) btn hs hc hne hd hdne)
  refine ⟨_, ?_, ready', rfl, rfl⟩
  rw [← ready.release_readRpt]
  exact types

end

/-! ## The message -/

/-- R71: what stands `i` indices behind the first part of a message. -/
theorem Memory.read_rom_append (typed todo : List Byte) (i : Nat) :
    (Memory.rom (typed ++ todo)).read (typed.length + i) = (todo ++ [0x00#8])[i]? := by
  rw [Memory.read_rom, List.append_assoc, List.getElem?_append_right (Nat.le_add_right ..), Nat.add_sub_cancel_left]

/-- From the first character still to type on: two ticks for each, to the end of the cycle. -/
theorem Ready.typesMessage {b : Build} {caps : Bool} {typed todo : List Byte} {levels btns : List Bool}
    {rest : List Input} {s : State} (ready : Ready b caps (typed ++ todo) (levels ++ btns) rest s)
    (legal : messageWf todo = true) (hne : todo ≠ []) (hs : s.seq = .characterPending)
    (cursor : s.cursor = typed.length) (length : levels.length = 2 * todo.length) :
    ∃ t, Types (2 * todo.length) s t (messageReports b caps todo) ∧ Ready b caps (typed ++ todo) btns rest t ∧
      t.seq = .awaitButtonRelease ∧ t.cursor = 0 := by
  induction todo generalizing typed levels s with
  | nil => exact absurd rfl hne
  | cons c todo ih =>
    obtain ⟨x, y, levels, rfl⟩ : ∃ x y levels', levels = x :: y :: levels' := by
      match levels, length with
      | x :: y :: levels', _ => exact ⟨x, y, levels', rfl⟩
    obtain ⟨character, legal'⟩ : c ≠ 0x00#8 ∧ messageWf todo = true := by simpa [messageWf] using legal
    have reads (u : State) (hm : u.msg = Memory.rom (typed ++ c :: todo)) (hu : u.cursor = typed.length) (i : Nat) :
        u.msg.read (u.cursor + i) = (c :: todo ++ [0x00#8])[i]? := by
      rw [hm, hu, Memory.read_rom_append]
    obtain ⟨t, types, ready, hs, atChar⟩ := Ready.character ready hs (reads s ready.msg cursor 0)
    have cursor' := atChar.trans cursor
    have hc := reads t ready.msg cursor' 0
    have hd := reads t ready.msg cursor' 1
    cases todo with
    | nil =>
      obtain ⟨u, types', ready, hs, cursor⟩ := Ready.lastRelease ready hs hc hd
      obtain rfl : levels = [] := List.eq_nil_of_length_eq_zero (by simpa using length)
      exact ⟨u, types.trans types', ready, hs, cursor⟩
    | cons d todo =>
      have next : d ≠ 0x00#8 := by
        simp only [messageWf, List.all_cons, Bool.and_eq_true, bne_iff_ne] at legal'
        exact legal'.1
      obtain ⟨u, types', ready, hs, cursor⟩ := Ready.nextRelease ready hs hc character hd next
      rw [List.append_cons] at ready ⊢
      obtain ⟨v, types'', ready, hs, cursor⟩ := ih ready legal' (List.cons_ne_nil d todo) hs
        (by rw [cursor, cursor', List.length_append, List.length_singleton]) (by simpa [Nat.mul_add] using length)
      refine ⟨v, ?_, ready, hs, cursor⟩
      have ticks : 2 * (c :: d :: todo).length = 1 + 1 + 2 * (d :: todo).length := by
        simp only [List.length_cons]
        omega
      rw [ticks]
      exact (types.trans types').trans types''

/-- Settles O39: the press, the message from its first character (`Ready.typesMessage`), and the tick that re-arms. -/
theorem pressCycleTypesTheMessage : Obligations.PressCycleTypesTheMessage := by
  intro s m btns rest msg legal hne running below hs cursor length inputs
  have start : Ready s.build s.capsOn m (false :: (btns ++ [true])) rest s := by
    refine ⟨rfl, rfl, msg, running, s.trip_eq_false_iff.mpr below, ?_⟩
    rw [inputs]
    simp
  obtain ⟨t, press, ready, hs, cursor'⟩ := start.press hs
  obtain ⟨u, message, ready, hs, wrapped⟩ :=
    Ready.typesMessage (typed := []) ready legal hne hs (cursor'.trans cursor) length
  obtain ⟨v, rearm, ready, hs, cursor''⟩ := ready.rearm hs
  obtain ⟨hrun, records, trace, count, serviced, emits⟩ := (press.trans message).trans rearm
  have ticks : 2 * m.length + 2 = 1 + 2 * m.length + 1 := by omega
  rw [ticks]
  exact ⟨v, records, hrun, hs, cursor''.trans wrapped, ready.inputs, ready.running, trace, count, serviced,
    by rw [emits, List.nil_append, List.append_nil]⟩

end Sys2Proof.Machine
end
